-- ==== Sys2Proof/Word.lean ====
section
/-! DEFINITION. The word types of the core: register words, buffer bytes, the BC6H block and the 16-bit channel value,
and the two plain containers the BC6H datapath is described with (three channels, four endpoints). -/

namespace Sys2Proof

/-- A descriptor register, a CMD word or an element of a word buffer (10_state.md R21, 20_memory.md R50). -/
abbrev Word := BitVec 32

/-- An element of a byte buffer (20_memory.md R50). -/
abbrev Byte := BitVec 8

/-- A BC6H block: block bit `8k+j` is bit `j` of byte `k` (00_scope.md R8). -/
abbrev Block := BitVec 128

/-- A finished channel value, a binary16 bit pattern (41_bc6h.md R124). -/
abbrev Half := BitVec 16

/-- The three channels of a pixel or of an endpoint (10_state.md R25). -/
inductive Chan where
  | r | g | b
deriving DecidableEq, Repr

/-- The four endpoints `EP.c[0]` to `EP.c[3]` (10_state.md R25). -/
inductive EpIx where
  | w | x | y | z
deriving DecidableEq, Repr

/-- One value per channel. -/
structure Rgb (α : Type) where
  r : α
  g : α
  b : α
deriving DecidableEq, Repr

/-- One value per endpoint: `w, x` of subset 0 and `y, z` of subset 1 (10_state.md R25). -/
structure Quad (α : Type) where
  w : α
  x : α
  y : α
  z : α
deriving DecidableEq, Repr

/-- The value of one channel. -/
def Rgb.get {α : Type} (p : Rgb α) : Chan → α
  | .r => p.r
  | .g => p.g
  | .b => p.b

/-- `p` with the value of one channel changed by `f`. -/
def Rgb.modify {α : Type} (p : Rgb α) (c : Chan) (f : α → α) : Rgb α :=
  match c with
  | .r => { p with r := f p.r }
  | .g => { p with g := f p.g }
  | .b => { p with b := f p.b }

/-- The same function on every channel (41_bc6h.md R128: the channels go through every step alike). -/
def Rgb.map {α β : Type} (f : α → β) (p : Rgb α) : Rgb β := ⟨f p.r, f p.g, f p.b⟩

/-- The same value in every channel. -/
def Rgb.all {α : Type} (a : α) : Rgb α := ⟨a, a, a⟩

/-- The value of one endpoint. -/
def Quad.get {α : Type} (q : Quad α) : EpIx → α
  | .w => q.w
  | .x => q.x
  | .y => q.y
  | .z => q.z

/-- `q` with the value of one endpoint changed by `f`. -/
def Quad.modify {α : Type} (q : Quad α) (e : EpIx) (f : α → α) : Quad α :=
  match e with
  | .w => { q with w := f q.w }
  | .x => { q with x := f q.x }
  | .y => { q with y := f q.y }
  | .z => { q with z := f q.z }

/-- The same function on every endpoint. -/
def Quad.map {α β : Type} (f : α → β) (q : Quad α) : Quad β := ⟨f q.w, f q.x, f q.y, f q.z⟩

/-- The same value in every endpoint. -/
def Quad.all {α : Type} (a : α) : Quad α := ⟨a, a, a, a⟩

end Sys2Proof
end

