-- ==== Sys2Proof/Config.lean ====
section
/-! DEFINITION. What the platform fixes and the spec leaves OPEN (00_scope.md R7): opaque constants without a body, so
that every proof holds for every value of them. Where the spec binds a parameter by laws (43_ps2.md R158, R163), the
laws are built into the types (a permutation of the units of the grid and a permutation inside each unit) and into the
maps of Machine/Operands.lean. DESIGN CHOICE, unsafe: the constants are one value for all instances of a platform, PS2_IDX8
alone being chosen per instance (log 30). -/

namespace Sys2Proof

/-- MAX_DIM, the largest legal WIDTH and HEIGHT (00_scope.md R7). -/
def Config.maxDim : Nat := 65535

/-- FILL, the value of output elements no command writes (00_scope.md R7, 20_memory.md R63), as a byte. -/
def Config.fillByte : Byte := 0

/-- FILL as a word. -/
def Config.fillWord : Word := 0

/-- BC6H_TO8, OPEN: from a finished 16-bit value to the 8-bit channel (00_scope.md R7, 41_bc6h.md R125). One for
all instances of a platform, the model's choice (log 30). -/
opaque Config.bc6hTo8 : Half → Byte

/-- One less than N_INST, OPEN, at least 1 (00_scope.md R7, 60_exceptions.md R211). -/
opaque Config.extraInstances : Nat

/-- N_INST, the number of core instances of the platform. -/
def Config.nInst : Nat := Config.extraInstances + 1

/-- Which PS2_IDX8 an instance is configured with (00_scope.md R7, 70_reset_and_hazards.md R233): the default of 43_ps2.md
R153, or the one numbered `k` among those that may replace it. -/
inductive Config.Ps2Index where
  | standard
  | custom (k : Nat)
deriving DecidableEq, Repr

/-- The functions that may stand in the place of the default PS2_IDX8(x, y, W), bound by no law: whatever is proved for
every number `k` is proved for every function (00_scope.md R7; log 14). -/
opaque Config.customPs2Idx8 : Nat → (w x y : Nat) → Nat

/-- EA4_UNSWIZZLE_LUT, OPEN, 128 entries (43_ps2.md R157). -/
opaque Config.ea4UnswizzleLut : Fin 128 → Nat

/-- EA4_SWIZZLE4_LUT, OPEN, 128 entries (43_ps2.md R157). -/
opaque Config.ea4Swizzle4Lut : Fin 128 → Nat

/-- The tables EA4_MAP may depend on (43_ps2.md R158 (a)). -/
structure Config.Ea4Tables where
  unswizzleLut : Fin 128 → Nat
  swizzle4Lut : Fin 128 → Nat
  blockTable4 : List Nat
  blockTable32 : List Nat

/-- EA4_MAP on the page grid, OPEN: which 256-byte unit each of the `n` 32x16 blocks of a `w` x `h` image goes to
(43_ps2.md R158 (b), (c)). -/
opaque Config.ea4Unit : Config.Ea4Tables → (w h n : Nat) → Equiv.Perm (Fin n)

/-- EA4_MAP on the page grid, OPEN: where each of the 512 pixels of block `k` goes inside its unit (43_ps2.md R158). -/
opaque Config.ea4Slot : Config.Ea4Tables → (w h k : Nat) → Equiv.Perm (Fin 512)

/-- EA4_MAP off the page grid, OPEN: which unit each 32x16 block of a whole page goes to, distinct units for distinct blocks
(43_ps2.md R158 (c)). Unit `u` begins at pixel slot `512 * u`, the model's choice (log 29). -/
opaque Config.ea4PageUnit : Config.Ea4Tables → (w h page : Nat) → Equiv.Perm Nat

/-- EA4_MAP off the page grid, OPEN: where a pixel goes; of a pixel of a whole page only its place inside its unit is taken
from here (43_ps2.md R158, R159). -/
opaque Config.ea4Free : Config.Ea4Tables → (w h p : Nat) → Nat

/-- The three SUBA variants (43_ps2.md R163). -/
inductive Config.SubaKind where
  | suba4 | suba8 | suba16
deriving DecidableEq, Repr

/-- SUBA_MAP on the page grid, OPEN: which run of slots each of the `n` pages of a `w` x `h` image goes to
(43_ps2.md R163 (b), (c)). -/
opaque Config.subaPage : Config.SubaKind → (w h n : Nat) → Equiv.Perm (Fin n)

/-- SUBA_MAP on the page grid, OPEN: where each of the `n` pixels of page `k` goes inside its run (43_ps2.md R163). -/
opaque Config.subaSlot : Config.SubaKind → (w h k n : Nat) → Equiv.Perm (Fin n)

/-- SUBA_MAP off the page grid, OPEN: the first slot of the run a whole page goes to (43_ps2.md R163 (c)). -/
opaque Config.subaRun : Config.SubaKind → (w h page : Nat) → Nat

/-- SUBA_MAP off the page grid, OPEN: where a pixel goes; of a pixel of a whole page only its place inside its run is taken
from here (43_ps2.md R163, R164). -/
opaque Config.subaFree : Config.SubaKind → (w h p : Nat) → Nat

end Sys2Proof
end

