-- ==== Sys2Proof/Machine/Tables.lean ====
section
/-! DEFINITION. The read-only tables of the core (10_state.md R28): MODE_TABLE, FIELD_LAYOUT, PARTITION_TABLE with the
fix-up positions, the weight tables and the block tables of the PS2 4-bit swizzle. Nothing writes them (20_memory.md R67). -/

namespace Sys2Proof

/-- One mode descriptor (30_encoding.md R72 and R76): the mode code and its length, whether the block has two regions,
whether x, y, z are deltas, and the field widths. -/
structure ModeDesc where
  code : Nat
  codeLen : Nat
  twoRegions : Bool
  transformed : Bool
  wb : Nat
  dr : Nat
  dg : Nat
  db : Nat
deriving DecidableEq, Repr

/-- MODE_TABLE (30_encoding.md R72, R76), by mode index. -/
def modeTable : List ModeDesc := [
  ⟨0x00, 2, true, true, 10, 5, 5, 5⟩,
  ⟨0x01, 2, true, true, 7, 6, 6, 6⟩,
  ⟨0x02, 5, true, true, 11, 5, 4, 4⟩,
  ⟨0x06, 5, true, true, 11, 4, 5, 4⟩,
  ⟨0x0A, 5, true, true, 11, 4, 4, 5⟩,
  ⟨0x0E, 5, true, true, 9, 5, 5, 5⟩,
  ⟨0x12, 5, true, true, 8, 6, 5, 5⟩,
  ⟨0x16, 5, true, true, 8, 5, 6, 5⟩,
  ⟨0x1A, 5, true, true, 8, 5, 5, 6⟩,
  ⟨0x1E, 5, true, false, 6, 6, 6, 6⟩,
  ⟨0x03, 5, false, false, 10, 10, 10, 10⟩,
  ⟨0x07, 5, false, true, 11, 9, 9, 9⟩,
  ⟨0x0B, 5, false, true, 12, 8, 8, 8⟩,
  ⟨0x0F, 5, false, true, 16, 4, 4, 4⟩]

/-- The descriptor of mode index `m`. -/
def modeDesc (m : Fin 14) : ModeDesc := modeTable.getD m.val ⟨0, 0, false, false, 0, 0, 0, 0⟩

/-- The width of the x, y, z fields of channel `c`: DR, DG or DB (30_encoding.md R76). -/
def ModeDesc.delta (d : ModeDesc) : Chan → Nat
  | .r => d.dr
  | .g => d.dg
  | .b => d.db

/-- The width of the field of endpoint `e` of channel `c`: WB for w, the delta width for x, y and z. -/
def ModeDesc.width (d : ModeDesc) (c : Chan) : EpIx → Nat
  | .w => d.wb
  | .x | .y | .z => d.delta c

/-- The four reserved mode codes (30_encoding.md R74). -/
def reservedCodes : List (BitVec 5) := [0x13, 0x17, 0x1B, 0x1F]

/-- The mode index a mode code selects, none for a reserved code (30_encoding.md R72, R74; 41_bc6h.md R111). -/
def modeOfCode (code : Nat) : Option (Fin 14) :=
  match code with
  | 0x00 => some 0
  | 0x01 => some 1
  | 0x02 => some 2
  | 0x06 => some 3
  | 0x0A => some 4
  | 0x0E => some 5
  | 0x12 => some 6
  | 0x16 => some 7
  | 0x1A => some 8
  | 0x1E => some 9
  | 0x03 => some 10
  | 0x07 => some 11
  | 0x0B => some 12
  | 0x0F => some 13
  | _ => none

/-- One row of FIELD_LAYOUT (30_encoding.md R75, R77): the next `width` block bits belong to bits `lo` to `lo+width-1` of
endpoint `ep` of channel `ch`; `reversed` marks a reversed run. -/
structure FieldRow where
  ch : Chan
  ep : EpIx
  lo : Nat
  width : Nat
  reversed : Bool
deriving DecidableEq, Repr

/-- FIELD_LAYOUT of mode index 0 (30_encoding.md R77). -/
def layout0 : List FieldRow := [
  ⟨.g, .y, 4, 1, false⟩, ⟨.b, .y, 4, 1, false⟩, ⟨.b, .z, 4, 1, false⟩, ⟨.r, .w, 0, 10, false⟩, ⟨.g, .w, 0, 10, false⟩,
  ⟨.b, .w, 0, 10, false⟩, ⟨.r, .x, 0, 5, false⟩, ⟨.g, .z, 4, 1, false⟩, ⟨.g, .y, 0, 4, false⟩, ⟨.g, .x, 0, 5, false⟩,
  ⟨.b, .z, 0, 1, false⟩, ⟨.g, .z, 0, 4, false⟩, ⟨.b, .x, 0, 5, false⟩, ⟨.b, .z, 1, 1, false⟩, ⟨.b, .y, 0, 4, false⟩,
  ⟨.r, .y, 0, 5, false⟩, ⟨.b, .z, 2, 1, false⟩, ⟨.r, .z, 0, 5, false⟩, ⟨.b, .z, 3, 1, false⟩]

/-- FIELD_LAYOUT of mode index 1 (30_encoding.md R77). -/
def layout1 : List FieldRow := [
  ⟨.g, .y, 5, 1, false⟩, ⟨.g, .z, 4, 1, false⟩, ⟨.g, .z, 5, 1, false⟩, ⟨.r, .w, 0, 7, false⟩, ⟨.b, .z, 0, 1, false⟩,
  ⟨.b, .z, 1, 1, false⟩, ⟨.b, .y, 4, 1, false⟩, ⟨.g, .w, 0, 7, false⟩, ⟨.b, .y, 5, 1, false⟩, ⟨.b, .z, 2, 1, false⟩,
  ⟨.g, .y, 4, 1, false⟩, ⟨.b, .w, 0, 7, false⟩, ⟨.b, .z, 3, 1, false⟩, ⟨.b, .z, 5, 1, false⟩, ⟨.b, .z, 4, 1, false⟩,
  ⟨.r, .x, 0, 6, false⟩, ⟨.g, .y, 0, 4, false⟩, ⟨.g, .x, 0, 6, false⟩, ⟨.g, .z, 0, 4, false⟩, ⟨.b, .x, 0, 6, false⟩,
  ⟨.b, .y, 0, 4, false⟩, ⟨.r, .y, 0, 6, false⟩, ⟨.r, .z, 0, 6, false⟩]

/-- FIELD_LAYOUT of mode index 2 (30_encoding.md R77). -/
def layout2 : List FieldRow := [
  ⟨.r, .w, 0, 10, false⟩, ⟨.g, .w, 0, 10, false⟩, ⟨.b, .w, 0, 10, false⟩, ⟨.r, .x, 0, 5, false⟩, ⟨.r, .w, 10, 1, false⟩,
  ⟨.g, .y, 0, 4, false⟩, ⟨.g, .x, 0, 4, false⟩, ⟨.g, .w, 10, 1, false⟩, ⟨.b, .z, 0, 1, false⟩, ⟨.g, .z, 0, 4, false⟩,
  ⟨.b, .x, 0, 4, false⟩, ⟨.b, .w, 10, 1, false⟩, ⟨.b, .z, 1, 1, false⟩, ⟨.b, .y, 0, 4, false⟩, ⟨.r, .y, 0, 5, false⟩,
  ⟨.b, .z, 2, 1, false⟩, ⟨.r, .z, 0, 5, false⟩, ⟨.b, .z, 3, 1, false⟩]

/-- FIELD_LAYOUT of mode index 3 (30_encoding.md R77). -/
def layout3 : List FieldRow := [
  ⟨.r, .w, 0, 10, false⟩, ⟨.g, .w, 0, 10, false⟩, ⟨.b, .w, 0, 10, false⟩, ⟨.r, .x, 0, 4, false⟩, ⟨.r, .w, 10, 1, false⟩,
  ⟨.g, .z, 4, 1, false⟩, ⟨.g, .y, 0, 4, false⟩, ⟨.g, .x, 0, 5, false⟩, ⟨.g, .w, 10, 1, false⟩, ⟨.g, .z, 0, 4, false⟩,
  ⟨.b, .x, 0, 4, false⟩, ⟨.b, .w, 10, 1, false⟩, ⟨.b, .z, 1, 1, false⟩, ⟨.b, .y, 0, 4, false⟩, ⟨.r, .y, 0, 4, false⟩,
  ⟨.b, .z, 0, 1, false⟩, ⟨.b, .z, 2, 1, false⟩, ⟨.r, .z, 0, 4, false⟩, ⟨.g, .y, 4, 1, false⟩, ⟨.b, .z, 3, 1, false⟩]

/-- FIELD_LAYOUT of mode index 4 (30_encoding.md R77). -/
def layout4 : List FieldRow := [
  ⟨.r, .w, 0, 10, false⟩, ⟨.g, .w, 0, 10, false⟩, ⟨.b, .w, 0, 10, false⟩, ⟨.r, .x, 0, 4, false⟩, ⟨.r, .w, 10, 1, false⟩,
  ⟨.b, .y, 4, 1, false⟩, ⟨.g, .y, 0, 4, false⟩, ⟨.g, .x, 0, 4, false⟩, ⟨.g, .w, 10, 1, false⟩, ⟨.b, .z, 0, 1, false⟩,
  ⟨.g, .z, 0, 4, false⟩, ⟨.b, .x, 0, 5, false⟩, ⟨.b, .w, 10, 1, false⟩, ⟨.b, .y, 0, 4, false⟩, ⟨.r, .y, 0, 4, false⟩,
  ⟨.b, .z, 1, 1, false⟩, ⟨.b, .z, 2, 1, false⟩, ⟨.r, .z, 0, 4, false⟩, ⟨.b, .z, 4, 1, false⟩, ⟨.b, .z, 3, 1, false⟩]

/-- FIELD_LAYOUT of mode index 5 (30_encoding.md R77). -/
def layout5 : List FieldRow := [
  ⟨.r, .w, 0, 9, false⟩, ⟨.b, .y, 4, 1, false⟩, ⟨.g, .w, 0, 9, false⟩, ⟨.g, .y, 4, 1, false⟩, ⟨.b, .w, 0, 9, false⟩,
  ⟨.b, .z, 4, 1, false⟩, ⟨.r, .x, 0, 5, false⟩, ⟨.g, .z, 4, 1, false⟩, ⟨.g, .y, 0, 4, false⟩, ⟨.g, .x, 0, 5, false⟩,
  ⟨.b, .z, 0, 1, false⟩, ⟨.g, .z, 0, 4, false⟩, ⟨.b, .x, 0, 5, false⟩, ⟨.b, .z, 1, 1, false⟩, ⟨.b, .y, 0, 4, false⟩,
  ⟨.r, .y, 0, 5, false⟩, ⟨.b, .z, 2, 1, false⟩, ⟨.r, .z, 0, 5, false⟩, ⟨.b, .z, 3, 1, false⟩]

/-- FIELD_LAYOUT of mode index 6 (30_encoding.md R77). -/
def layout6 : List FieldRow := [
  ⟨.r, .w, 0, 8, false⟩, ⟨.g, .z, 4, 1, false⟩, ⟨.b, .y, 4, 1, false⟩, ⟨.g, .w, 0, 8, false⟩, ⟨.b, .z, 2, 1, false⟩,
  ⟨.g, .y, 4, 1, false⟩, ⟨.b, .w, 0, 8, false⟩, ⟨.b, .z, 3, 1, false⟩, ⟨.b, .z, 4, 1, false⟩, ⟨.r, .x, 0, 6, false⟩,
  ⟨.g, .y, 0, 4, false⟩, ⟨.g, .x, 0, 5, false⟩, ⟨.b, .z, 0, 1, false⟩, ⟨.g, .z, 0, 4, false⟩, ⟨.b, .x, 0, 5, false⟩,
  ⟨.b, .z, 1, 1, false⟩, ⟨.b, .y, 0, 4, false⟩, ⟨.r, .y, 0, 6, false⟩, ⟨.r, .z, 0, 6, false⟩]

/-- FIELD_LAYOUT of mode index 7 (30_encoding.md R77). -/
def layout7 : List FieldRow := [
  ⟨.r, .w, 0, 8, false⟩, ⟨.b, .z, 0, 1, false⟩, ⟨.b, .y, 4, 1, false⟩, ⟨.g, .w, 0, 8, false⟩, ⟨.g, .y, 5, 1, false⟩,
  ⟨.g, .y, 4, 1, false⟩, ⟨.b, .w, 0, 8, false⟩, ⟨.g, .z, 5, 1, false⟩, ⟨.b, .z, 4, 1, false⟩, ⟨.r, .x, 0, 5, false⟩,
  ⟨.g, .z, 4, 1, false⟩, ⟨.g, .y, 0, 4, false⟩, ⟨.g, .x, 0, 6, false⟩, ⟨.g, .z, 0, 4, false⟩, ⟨.b, .x, 0, 5, false⟩,
  ⟨.b, .z, 1, 1, false⟩, ⟨.b, .y, 0, 4, false⟩, ⟨.r, .y, 0, 5, false⟩, ⟨.b, .z, 2, 1, false⟩, ⟨.r, .z, 0, 5, false⟩,
  ⟨.b, .z, 3, 1, false⟩]

/-- FIELD_LAYOUT of mode index 8 (30_encoding.md R77). -/
def layout8 : List FieldRow := [
  ⟨.r, .w, 0, 8, false⟩, ⟨.b, .z, 1, 1, false⟩, ⟨.b, .y, 4, 1, false⟩, ⟨.g, .w, 0, 8, false⟩, ⟨.b, .y, 5, 1, false⟩,
  ⟨.g, .y, 4, 1, false⟩, ⟨.b, .w, 0, 8, false⟩, ⟨.b, .z, 5, 1, false⟩, ⟨.b, .z, 4, 1, false⟩, ⟨.r, .x, 0, 5, false⟩,
  ⟨.g, .z, 4, 1, false⟩, ⟨.g, .y, 0, 4, false⟩, ⟨.g, .x, 0, 5, false⟩, ⟨.b, .z, 0, 1, false⟩, ⟨.g, .z, 0, 4, false⟩,
  ⟨.b, .x, 0, 6, false⟩, ⟨.b, .y, 0, 4, false⟩, ⟨.r, .y, 0, 5, false⟩, ⟨.b, .z, 2, 1, false⟩, ⟨.r, .z, 0, 5, false⟩,
  ⟨.b, .z, 3, 1, false⟩]

/-- FIELD_LAYOUT of mode index 9 (30_encoding.md R77). -/
def layout9 : List FieldRow := [
  ⟨.r, .w, 0, 6, false⟩, ⟨.g, .z, 4, 1, false⟩, ⟨.b, .z, 0, 1, false⟩, ⟨.b, .z, 1, 1, false⟩, ⟨.b, .y, 4, 1, false⟩,
  ⟨.g, .w, 0, 6, false⟩, ⟨.g, .y, 5, 1, false⟩, ⟨.b, .y, 5, 1, false⟩, ⟨.b, .z, 2, 1, false⟩, ⟨.g, .y, 4, 1, false⟩,
  ⟨.b, .w, 0, 6, false⟩, ⟨.g, .z, 5, 1, false⟩, ⟨.b, .z, 3, 1, false⟩, ⟨.b, .z, 5, 1, false⟩, ⟨.b, .z, 4, 1, false⟩,
  ⟨.r, .x, 0, 6, false⟩, ⟨.g, .y, 0, 4, false⟩, ⟨.g, .x, 0, 6, false⟩, ⟨.g, .z, 0, 4, false⟩, ⟨.b, .x, 0, 6, false⟩,
  ⟨.b, .y, 0, 4, false⟩, ⟨.r, .y, 0, 6, false⟩, ⟨.r, .z, 0, 6, false⟩]

/-- FIELD_LAYOUT of mode index 10 (30_encoding.md R77). -/
def layout10 : List FieldRow := [
  ⟨.r, .w, 0, 10, false⟩, ⟨.g, .w, 0, 10, false⟩, ⟨.b, .w, 0, 10, false⟩, ⟨.r, .x, 0, 10, false⟩, ⟨.g, .x, 0, 10, false⟩,
  ⟨.b, .x, 0, 10, false⟩]

/-- FIELD_LAYOUT of mode index 11 (30_encoding.md R77). -/
def layout11 : List FieldRow := [
  ⟨.r, .w, 0, 10, false⟩, ⟨.g, .w, 0, 10, false⟩, ⟨.b, .w, 0, 10, false⟩, ⟨.r, .x, 0, 9, false⟩, ⟨.r, .w, 10, 1, false⟩,
  ⟨.g, .x, 0, 9, false⟩, ⟨.g, .w, 10, 1, false⟩, ⟨.b, .x, 0, 9, false⟩, ⟨.b, .w, 10, 1, false⟩]

/-- FIELD_LAYOUT of mode index 12 (30_encoding.md R77). -/
def layout12 : List FieldRow := [
  ⟨.r, .w, 0, 10, false⟩, ⟨.g, .w, 0, 10, false⟩, ⟨.b, .w, 0, 10, false⟩, ⟨.r, .x, 0, 8, false⟩, ⟨.r, .w, 10, 2, true⟩,
  ⟨.g, .x, 0, 8, false⟩, ⟨.g, .w, 10, 2, true⟩, ⟨.b, .x, 0, 8, false⟩, ⟨.b, .w, 10, 2, true⟩]

/-- FIELD_LAYOUT of mode index 13 (30_encoding.md R77). -/
def layout13 : List FieldRow := [
  ⟨.r, .w, 0, 10, false⟩, ⟨.g, .w, 0, 10, false⟩, ⟨.b, .w, 0, 10, false⟩, ⟨.r, .x, 0, 4, false⟩, ⟨.r, .w, 10, 6, true⟩,
  ⟨.g, .x, 0, 4, false⟩, ⟨.g, .w, 10, 6, true⟩, ⟨.b, .x, 0, 4, false⟩, ⟨.b, .w, 10, 6, true⟩]

/-- FIELD_LAYOUT (30_encoding.md R77): the endpoint rows of mode index `m` in increasing block-bit order, after the mode
code and before the partition number. -/
def layout (m : Fin 14) : List FieldRow :=
  [layout0, layout1, layout2, layout3, layout4, layout5, layout6, layout7, layout8, layout9, layout10, layout11,
    layout12, layout13].getD m.val []

/-- PARTITION_TABLE (41_bc6h.md R121): 32 shapes of 16 entries in row-major order, a digit being the pixel's subset. -/
def partitionTable : List (List Nat) := [
  [0,0,1,1,  0,0,1,1,  0,0,1,1,  0,0,1,1],
  [0,0,0,1,  0,0,0,1,  0,0,0,1,  0,0,0,1],
  [0,1,1,1,  0,1,1,1,  0,1,1,1,  0,1,1,1],
  [0,0,0,1,  0,0,1,1,  0,0,1,1,  0,1,1,1],
  [0,0,0,0,  0,0,0,1,  0,0,0,1,  0,0,1,1],
  [0,0,1,1,  0,1,1,1,  0,1,1,1,  1,1,1,1],
  [0,0,0,1,  0,0,1,1,  0,1,1,1,  1,1,1,1],
  [0,0,0,0,  0,0,0,1,  0,0,1,1,  0,1,1,1],
  [0,0,0,0,  0,0,0,0,  0,0,0,1,  0,0,1,1],
  [0,0,1,1,  0,1,1,1,  1,1,1,1,  1,1,1,1],
  [0,0,0,0,  0,0,0,1,  0,1,1,1,  1,1,1,1],
  [0,0,0,0,  0,0,0,0,  0,0,0,1,  0,1,1,1],
  [0,0,0,1,  0,1,1,1,  1,1,1,1,  1,1,1,1],
  [0,0,0,0,  0,0,0,0,  1,1,1,1,  1,1,1,1],
  [0,0,0,0,  1,1,1,1,  1,1,1,1,  1,1,1,1],
  [0,0,0,0,  0,0,0,0,  0,0,0,0,  1,1,1,1],
  [0,0,0,0,  1,0,0,0,  1,1,1,0,  1,1,1,1],
  [0,1,1,1,  0,0,0,1,  0,0,0,0,  0,0,0,0],
  [0,0,0,0,  0,0,0,0,  1,0,0,0,  1,1,1,0],
  [0,1,1,1,  0,0,1,1,  0,0,0,1,  0,0,0,0],
  [0,0,1,1,  0,0,0,1,  0,0,0,0,  0,0,0,0],
  [0,0,0,0,  1,0,0,0,  1,1,0,0,  1,1,1,0],
  [0,0,0,0,  0,0,0,0,  1,0,0,0,  1,1,0,0],
  [0,1,1,1,  0,0,1,1,  0,0,1,1,  0,0,0,1],
  [0,0,1,1,  0,0,0,1,  0,0,0,1,  0,0,0,0],
  [0,0,0,0,  1,0,0,0,  1,0,0,0,  1,1,0,0],
  [0,1,1,0,  0,1,1,0,  0,1,1,0,  0,1,1,0],
  [0,0,1,1,  0,1,1,0,  0,1,1,0,  1,1,0,0],
  [0,0,0,1,  0,1,1,1,  1,1,1,0,  1,0,0,0],
  [0,0,0,0,  1,1,1,1,  1,1,1,1,  0,0,0,0],
  [0,1,1,1,  0,0,0,1,  1,0,0,0,  1,1,1,0],
  [0,0,1,1,  1,0,0,1,  1,0,0,1,  1,1,0,0]]

/-- PARTITION[p][k] (41_bc6h.md R121). -/
def partitionOf (p : BitVec 5) (k : Nat) : Nat := (partitionTable.getD p.toNat []).getD k 0

/-- FIXUP (41_bc6h.md R121): the pixel of subset 1 whose index has one bit fewer, by shape. -/
def fixupTable : List Nat := [15, 15, 15, 15, 15, 15, 15, 15, 15, 15, 15, 15, 15, 15, 15, 15, 15, 2, 8, 2, 2, 8, 8, 15, 2, 8, 2, 2, 8, 8, 2, 2]

/-- FIXUP[p] (41_bc6h.md R121). -/
def fixupOf (p : BitVec 5) : Nat := fixupTable.getD p.toNat 0

/-- IB(k), the width of pixel k's index (30_encoding.md R78, 41_bc6h.md R120). -/
def indexWidth (m : Fin 14) (p : BitVec 5) (k : Nat) : Nat :=
  if (modeDesc m).twoRegions then
    if k = 0 ∨ k = fixupOf p then 2 else 3
  else
    if k = 0 then 3 else 4

/-- The widths of the 16 index fields in pixel order (30_encoding.md R78). -/
def indexWidths (m : Fin 14) (p : BitVec 5) : List Nat := (List.range 16).map (indexWidth m p)

/-- WEIGHT3 (41_bc6h.md R122). -/
def weight3 : List Nat := [0, 9, 18, 27, 37, 46, 55, 64]

/-- WEIGHT4 (41_bc6h.md R122). -/
def weight4 : List Nat := [0, 4, 9, 13, 17, 21, 26, 30, 34, 38, 43, 47, 51, 55, 60, 64]

/-- The weight of an index: WEIGHT3 in the two-region modes, WEIGHT4 in the one-region modes (41_bc6h.md R122). -/
def weightOf (m : Fin 14) (idx : Nat) : Nat :=
  if (modeDesc m).twoRegions then weight3.getD idx 0 else weight4.getD idx 0

/-- BLOCK_TABLE32, 8 columns and 4 rows (43_ps2.md R156). -/
def blockTable32 : List Nat := [
  0, 1, 4, 5, 16, 17, 20, 21,
  2, 3, 6, 7, 18, 19, 22, 23,
  8, 9, 12, 13, 24, 25, 28, 29,
  10, 11, 14, 15, 26, 27, 30, 31]

/-- BLOCK_TABLE4, 4 columns and 8 rows (43_ps2.md R156). -/
def blockTable4 : List Nat := [
  0, 2, 8, 10,
  1, 3, 9, 11,
  4, 6, 12, 14,
  5, 7, 13, 15,
  16, 18, 24, 26,
  17, 19, 25, 27,
  20, 22, 28, 30,
  21, 23, 29, 31]

end Sys2Proof
end

