-- ==== Sys2Proof/Syntax.lean ====
section
/-! DEFINITION. The instructions: one constructor per row of spec/opcode_table.json. The rows of format CMD are the host
commands (30_encoding.md R81), those of format MICRO the steps of the bitstream reader (40_bitstream.md), those of
format BC6H_MODE the blocks of the 14 BC6H modes and of the reserved class, with the block's fields as operands
(30_encoding.md R70 to R79). -/

namespace Sys2Proof

/-- The fields of a block with a valid mode code, as the header and the index area hold them (30_encoding.md R75 to R79):
the raw endpoint fields, the partition number `d[4:0]` (0 in the one-region modes) and the 16 interpolation indices in
pixel order. -/
structure BlockFields where
  ep : Rgb (Quad Nat)
  part : BitVec 5
  idx : List Nat
deriving DecidableEq, Repr

/-- One constructor per row of spec/opcode_table.json. -/
inductive Instr where
  | bc6hDec (signed : Bool)
  | bc6hDecF (signed : Bool)
  | mortonIndex
  | mortonSwz
  | mortonUnswz
  | palStripe
  | palUnstripe
  | ps2Swz8
  | ps2Unswz8
  | ps2Swz32
  | ps2Unswz32
  | ps2Swz4
  | ps2Unswz4
  | subaSwz4
  | subaUnswz4
  | subaSwz8
  | subaUnswz8
  | subaSwz16
  | subaUnswz16
  | pspSwz
  | pspUnswz
  | readBits (n : Nat)
  | readBitsR (n : Nat)
  | bc6hMode0 (f : BlockFields)
  | bc6hMode1 (f : BlockFields)
  | bc6hMode2 (f : BlockFields)
  | bc6hMode3 (f : BlockFields)
  | bc6hMode4 (f : BlockFields)
  | bc6hMode5 (f : BlockFields)
  | bc6hMode6 (f : BlockFields)
  | bc6hMode7 (f : BlockFields)
  | bc6hMode8 (f : BlockFields)
  | bc6hMode9 (f : BlockFields)
  | bc6hMode10 (f : BlockFields)
  | bc6hMode11 (f : BlockFields)
  | bc6hMode12 (f : BlockFields)
  | bc6hMode13 (f : BlockFields)
  | bc6hModeRsv (code : BitVec 5)
deriving DecidableEq, Repr

/-- The three formats of spec/opcode_table.json. -/
inductive Format where
  | cmd | micro | bc6hMode
deriving DecidableEq, Repr

/-- The format column of an instruction's row. -/
def Instr.format : Instr → Format
  | .bc6hDec _ | .bc6hDecF _ | .mortonIndex | .mortonSwz | .mortonUnswz | .palStripe | .palUnstripe
  | .ps2Swz8 | .ps2Unswz8 | .ps2Swz32 | .ps2Unswz32 | .ps2Swz4 | .ps2Unswz4
  | .subaSwz4 | .subaUnswz4 | .subaSwz8 | .subaUnswz8 | .subaSwz16 | .subaUnswz16
  | .pspSwz | .pspUnswz => .cmd
  | .readBits _ | .readBitsR _ => .micro
  | .bc6hMode0 _ | .bc6hMode1 _ | .bc6hMode2 _ | .bc6hMode3 _ | .bc6hMode4 _ | .bc6hMode5 _ | .bc6hMode6 _
  | .bc6hMode7 _ | .bc6hMode8 _ | .bc6hMode9 _ | .bc6hMode10 _ | .bc6hMode11 _ | .bc6hMode12 _ | .bc6hMode13 _
  | .bc6hModeRsv _ => .bc6hMode

end Sys2Proof
end

