-- ==== Sys2Proof/WellFormed.lean ====
section
/-! DEFINITION. Which instruction terms the encodings admit: the widths of 40_bitstream.md R100, the field widths of
30_encoding.md R76 and R78, and the reserved codes of R74. A command is well formed as it stands (R80). -/

namespace Sys2Proof

/-- Every channel holds `p`. -/
def Rgb.allOk {α : Type} (p : Chan → α → Bool) (v : Rgb α) : Bool := p .r v.r && p .g v.g && p .b v.b

/-- Every endpoint field fits its width; in a one-region mode y and z are 0, since no field stores them
(30_encoding.md R76, 41_bc6h.md R113). -/
def BlockFields.epOk (m : Fin 14) (f : BlockFields) : Bool :=
  f.ep.allOk fun c q =>
    decide (q.w < 2 ^ (modeDesc m).wb) && decide (q.x < 2 ^ (modeDesc m).delta c) &&
      (if (modeDesc m).twoRegions then
        decide (q.y < 2 ^ (modeDesc m).delta c) && decide (q.z < 2 ^ (modeDesc m).delta c)
      else q.y == 0 && q.z == 0)

/-- A one-region mode has no partition field (30_encoding.md R79). -/
def BlockFields.partOk (m : Fin 14) (f : BlockFields) : Bool := (modeDesc m).twoRegions || f.part == 0

/-- There are 16 indices, one per pixel (30_encoding.md R78). -/
def BlockFields.idxCountOk (f : BlockFields) : Bool := f.idx.length == 16

/-- Every index fits its width IB(k) (30_encoding.md R78). -/
def BlockFields.idxOk (m : Fin 14) (f : BlockFields) : Bool :=
  (List.range 16).all fun k => decide (f.idx.getD k 0 < 2 ^ indexWidth m f.part k)

/-- The fields of a block of mode index `m` are ones its layout can hold. -/
def BlockFields.wf (m : Fin 14) (f : BlockFields) : Bool := f.epOk m && f.partOk m && f.idxCountOk && f.idxOk m

/-- The widths a bitstream read admits (40_bitstream.md R100). -/
def readWidthOk (n : Nat) : Bool := decide (1 ≤ n) && decide (n ≤ 16)

/-- Well-formedness of an instruction. -/
def Instr.wf : Instr → Bool
  | .bc6hDec _ | .bc6hDecF _ | .mortonIndex | .mortonSwz | .mortonUnswz | .palStripe | .palUnstripe
  | .ps2Swz8 | .ps2Unswz8 | .ps2Swz32 | .ps2Unswz32 | .ps2Swz4 | .ps2Unswz4
  | .subaSwz4 | .subaUnswz4 | .subaSwz8 | .subaUnswz8 | .subaSwz16 | .subaUnswz16
  | .pspSwz | .pspUnswz => true
  | .readBits n | .readBitsR n => readWidthOk n
  | .bc6hMode0 f => f.wf 0
  | .bc6hMode1 f => f.wf 1
  | .bc6hMode2 f => f.wf 2
  | .bc6hMode3 f => f.wf 3
  | .bc6hMode4 f => f.wf 4
  | .bc6hMode5 f => f.wf 5
  | .bc6hMode6 f => f.wf 6
  | .bc6hMode7 f => f.wf 7
  | .bc6hMode8 f => f.wf 8
  | .bc6hMode9 f => f.wf 9
  | .bc6hMode10 f => f.wf 10
  | .bc6hMode11 f => f.wf 11
  | .bc6hMode12 f => f.wf 12
  | .bc6hMode13 f => f.wf 13
  | .bc6hModeRsv code => reservedCodes.contains code

end Sys2Proof
end

