-- ==== Sys2Proof/Decode.lean ====
section
/-! DEFINITION. The bit reader, the decoders of the two encodings (CMD words, 30_encoding.md R80 to R82; BC6H blocks,
R70 to R79), and after them the encoder. A CMD word the spec calls illegal is rejected by name. Every block decodes. -/

namespace Sys2Proof

/-! ## The bit reader -/

/-- The value of ReadBits(n) at cursor `cur`: block bits `cur` to `cur+n-1`, the first one lowest. None is the refusal
RF_OVERRUN: a width outside 1..16 or a read past bit 127 (40_bitstream.md R100). -/
def readBits (b : Block) (cur n : Nat) : Option Nat :=
  if n < 1 ∨ 16 < n then none
  else if 128 < cur + n then none
  else some ((b.toNat >>> cur) % 2 ^ n)

/-- The `n` low bits of `v` in reverse order (40_bitstream.md R101). -/
def reverseBits (n v : Nat) : Nat :=
  (List.range n).foldl (fun r i => r ||| (((v >>> i) &&& 1) <<< (n - 1 - i))) 0

/-- The value of ReadBitsR(n): ReadBits(n), its bits reversed (40_bitstream.md R101). -/
def readBitsR (b : Block) (cur n : Nat) : Option Nat := (readBits b cur n).map (reverseBits n)

/-- The block of 16 bytes, element 0 lowest (00_scope.md R8, 20_memory.md R53). -/
def blockOfBytes (bs : List Byte) : Block :=
  BitVec.ofNat 128 (bs.foldr (fun x acc => x.toNat + 256 * acc) 0)

/-- The micro-operation that reads a row of FIELD_LAYOUT (30_encoding.md R77). -/
def FieldRow.micro (row : FieldRow) : Instr :=
  if row.reversed then .readBitsR row.width else .readBits row.width

/-- The value that micro-operation returns at cursor `cur`. -/
def FieldRow.read (row : FieldRow) (b : Block) (cur : Nat) : Option Nat :=
  if row.reversed then readBitsR b cur row.width else readBits b cur row.width

/-! ## BC6H blocks -/

/-- A read value ORed into the endpoint bits its row names (30_encoding.md R77). -/
def FieldRow.orInto (row : FieldRow) (v : Nat) (ep : Rgb (Quad Nat)) : Rgb (Quad Nat) :=
  ep.modify row.ch fun q => q.modify row.ep fun old => old ||| (v <<< row.lo)

/-- ExtractEndpoints (41_bc6h.md R113): one read per row, in table order; the endpoints and the cursor afterwards. -/
def readRows (b : Block) : List FieldRow → Nat → Rgb (Quad Nat) → Option (Rgb (Quad Nat) × Nat)
  | [], cur, ep => some (ep, cur)
  | row :: rows, cur, ep =>
    match row.read b cur with
    | none => none
    | some v => readRows b rows (cur + row.width) (row.orInto v ep)

/-- The index reads (30_encoding.md R78), one ReadBits per width; the indices and the cursor afterwards. -/
def readIndices (b : Block) : List Nat → Nat → Option (List Nat × Nat)
  | [], cur => some ([], cur)
  | n :: ns, cur =>
    match readBits b cur n with
    | none => none
    | some v =>
      match readIndices b ns (cur + n) with
      | none => none
      | some (vs, e) => some (v :: vs, e)

/-- The mode code and the cursor after it (30_encoding.md R71, 41_bc6h.md R111): 2 bits, and 3 more above them where
the first two are 2 or 3. -/
def readModeCode (b : Block) : Option (Nat × Nat) :=
  match readBits b 0 2 with
  | none => none
  | some m =>
    if m < 2 then some (m, 2)
    else
      match readBits b 2 3 with
      | none => none
      | some hi => some (m ||| (hi <<< 2), 5)

/-- The partition read (41_bc6h.md R114): 5 bits in the two-region modes, nothing in the one-region modes. -/
def readPartition (b : Block) (m : Fin 14) (cur : Nat) : Option (BitVec 5 × Nat) :=
  if (modeDesc m).twoRegions then
    match readBits b cur 5 with
    | none => none
    | some v => some (BitVec.ofNat 5 v, cur + 5)
  else some (0, cur)

/-- What the reads of one block give: the mode code, the mode index (none for a reserved code), the fields (all zero for
a reserved code, after which nothing is read, 41_bc6h.md R112), and the cursor at the end. -/
structure ParsedBlock where
  code : BitVec 5
  mode : Option (Fin 14)
  fields : BlockFields
  cur : Nat
deriving DecidableEq, Repr

/-- The fields of a block nothing has been read from: EP and PART cleared (70_reset_and_hazards.md R231). -/
def BlockFields.clear : BlockFields := ⟨Rgb.all (Quad.all 0), 0, []⟩

/-- All reads of a block with mode index `m`, from the cursor after the mode code (41_bc6h.md R113, R114, R120). -/
def readFields (b : Block) (m : Fin 14) (cur : Nat) : Option (BlockFields × Nat) :=
  match readRows b (layout m) cur (Rgb.all (Quad.all 0)) with
  | none => none
  | some (ep, c1) =>
    match readPartition b m c1 with
    | none => none
    | some (part, c2) =>
      match readIndices b (indexWidths m part) c2 with
      | none => none
      | some (idx, c3) => some (⟨ep, part, idx⟩, c3)

/-- All reads of a block, in the order of 41_bc6h.md R110. None is RF_OVERRUN, which no block reaches (R100). -/
def parseBlock (b : Block) : Option ParsedBlock :=
  match readModeCode b with
  | none => none
  | some (code, c0) =>
    match modeOfCode code with
    | none => some ⟨BitVec.ofNat 5 code, none, BlockFields.clear, c0⟩
    | some m =>
      match readFields b m c0 with
      | none => none
      | some (f, c1) => some ⟨BitVec.ofNat 5 code, some m, f, c1⟩

/-- The instruction of a block of mode index `m`. -/
def instrOfMode (m : Fin 14) (f : BlockFields) : Instr :=
  match m with
  | 0 => .bc6hMode0 f
  | 1 => .bc6hMode1 f
  | 2 => .bc6hMode2 f
  | 3 => .bc6hMode3 f
  | 4 => .bc6hMode4 f
  | 5 => .bc6hMode5 f
  | 6 => .bc6hMode6 f
  | 7 => .bc6hMode7 f
  | 8 => .bc6hMode8 f
  | 9 => .bc6hMode9 f
  | 10 => .bc6hMode10 f
  | 11 => .bc6hMode11 f
  | 12 => .bc6hMode12 f
  | 13 => .bc6hMode13 f

/-- Why bits are no instruction. -/
inductive DecodeError where
  /-- OP is not in the table of 30_encoding.md R81. -/
  | unassignedOp (op : Byte)
  /-- S = 1 on a command that is not a BC6H command (30_encoding.md R82). -/
  | signedNotAllowed (op : Byte)
  /-- RSV is not 0 (30_encoding.md R82). -/
  | reservedBits (rsv : BitVec 23)
  /-- A read past the block (40_bitstream.md R100); no block reaches it. -/
  | overrun
  /-- A source buffer that is not 16 bytes long is no block (41_bc6h.md R110). -/
  | blockLength (n : Nat)
deriving DecidableEq, Repr

/-- The decoder of BC6H blocks. -/
def decodeBlock (b : Block) : Except DecodeError Instr :=
  match parseBlock b with
  | none => .error .overrun
  | some p =>
    match p.mode with
    | none => .ok (.bc6hModeRsv p.code)
    | some m => .ok (instrOfMode m p.fields)

/-- The decoder of a block as it stands in a byte buffer, total on any bytes. -/
def decodeBytes (bs : List Byte) : Except DecodeError Instr :=
  if bs.length = 16 then decodeBlock (blockOfBytes bs) else .error (.blockLength bs.length)

/-! ## CMD words -/

/-- OP, bits 7:0 of a CMD word (30_encoding.md R80). -/
def cmdOp (w : Word) : Byte := w.extractLsb' 0 8

/-- S, bit 8 of a CMD word. -/
def cmdS (w : Word) : Bool := w.getLsbD 8

/-- RSV, bits 31:9 of a CMD word. -/
def cmdRsv (w : Word) : BitVec 23 := w.extractLsb' 9 23

/-- The command of an OP number, none where the table has none; `signed` is the S bit (30_encoding.md R81). -/
def commandOfOp (op : Nat) (signed : Bool) : Option Instr :=
  match op with
  | 0x01 => some (.bc6hDec signed)
  | 0x02 => some (.bc6hDecF signed)
  | 0x10 => some .mortonIndex
  | 0x11 => some .mortonSwz
  | 0x12 => some .mortonUnswz
  | 0x20 => some .palStripe
  | 0x21 => some .palUnstripe
  | 0x22 => some .ps2Swz8
  | 0x23 => some .ps2Unswz8
  | 0x24 => some .ps2Swz32
  | 0x25 => some .ps2Unswz32
  | 0x26 => some .ps2Swz4
  | 0x27 => some .ps2Unswz4
  | 0x28 => some .subaSwz4
  | 0x29 => some .subaUnswz4
  | 0x2A => some .subaSwz8
  | 0x2B => some .subaUnswz8
  | 0x2C => some .subaSwz16
  | 0x2D => some .subaUnswz16
  | 0x30 => some .pspSwz
  | 0x31 => some .pspUnswz
  | _ => none

/-- The OPs whose commands have a `signed` argument (10_state.md R22). -/
def opTakesSigned (op : Nat) : Bool := op == 0x01 || op == 0x02

/-- The decoder of CMD words, strict as 30_encoding.md R82 says. -/
def decodeCmd (w : Word) : Except DecodeError Instr :=
  match commandOfOp (cmdOp w).toNat (cmdS w) with
  | none => .error (.unassignedOp (cmdOp w))
  | some i =>
    if cmdS w && !opTakesSigned (cmdOp w).toNat then .error (.signedNotAllowed (cmdOp w))
    else if cmdRsv w ≠ 0 then .error (.reservedBits (cmdRsv w))
    else .ok i

/-! ## The two encodings together -/

/-- The bits an instruction is written in: a CMD word, a block, or, for a micro-operation, which has no bits of its own,
the width and direction columns of a row of FIELD_LAYOUT (40_bitstream.md R100, R101). -/
inductive Encoding where
  | cmd (w : Word)
  | block (b : Block)
  | micro (reversed : Bool) (width : Nat)
deriving DecidableEq, Repr

/-- The decoder. -/
def decode : Encoding → Except DecodeError Instr
  | .cmd w => decodeCmd w
  | .block b => decodeBlock b
  | .micro reversed width => .ok (if reversed then .readBitsR width else .readBits width)

/-- The instruction the decoder reads from an opcode-table row's bits, numbered as the table numbers them: rows of 32
bits are CMD words, rows of 8 bits the first byte of a block whose other bits are 0 (128: the whole block). Rows of no
bits (the micro-operations, which the host cannot issue) have no word. -/
def decodeTableWord (nbits w : Nat) : Option Instr :=
  if nbits = 32 then (decodeCmd (BitVec.ofNat 32 w)).toOption
  else if nbits = 8 ∨ nbits = 128 then (decodeBlock (BitVec.ofNat 128 w)).toOption
  else none

/-! ## The encoder -/

/-- Values side by side, the first in the lowest bits, each cut to its width. -/
def packPieces : List (Nat × Nat) → Nat
  | [] => 0
  | (n, v) :: ps => v % 2 ^ n + 2 ^ n * packPieces ps

/-- What a row of FIELD_LAYOUT holds for given endpoints: its bits of the endpoint, reversed in a reversed run
(30_encoding.md R75). -/
def FieldRow.piece (row : FieldRow) (ep : Rgb (Quad Nat)) : Nat × Nat :=
  let v := (((ep.get row.ch).get row.ep) >>> row.lo) % 2 ^ row.width
  (row.width, if row.reversed then reverseBits row.width v else v)

/-- The partition field, present in the two-region modes only (30_encoding.md R79). -/
def partitionPieces (m : Fin 14) (p : BitVec 5) : List (Nat × Nat) :=
  if (modeDesc m).twoRegions then [(5, p.toNat)] else []

/-- All fields of a block in increasing block-bit order (30_encoding.md R70). -/
def blockPieces (m : Fin 14) (f : BlockFields) : List (Nat × Nat) :=
  ((modeDesc m).codeLen, (modeDesc m).code) ::
    ((layout m).map (fun row => row.piece f.ep) ++ partitionPieces m f.part ++
      (indexWidths m f.part).zip f.idx)

/-- The block of mode index `m` with the given fields. -/
def encodeBlock (m : Fin 14) (f : BlockFields) : Block := BitVec.ofNat 128 (packPieces (blockPieces m f))

/-- The CMD word `(S << 8) | OP` (30_encoding.md R80, R83). -/
def encodeCmd (op : Nat) (signed : Bool) : Word := BitVec.ofNat 32 ((if signed then 0x100 else 0) + op)

/-- The encoder. -/
def encode : Instr → Encoding
  | .bc6hDec s => .cmd (encodeCmd 0x01 s)
  | .bc6hDecF s => .cmd (encodeCmd 0x02 s)
  | .mortonIndex => .cmd (encodeCmd 0x10 false)
  | .mortonSwz => .cmd (encodeCmd 0x11 false)
  | .mortonUnswz => .cmd (encodeCmd 0x12 false)
  | .palStripe => .cmd (encodeCmd 0x20 false)
  | .palUnstripe => .cmd (encodeCmd 0x21 false)
  | .ps2Swz8 => .cmd (encodeCmd 0x22 false)
  | .ps2Unswz8 => .cmd (encodeCmd 0x23 false)
  | .ps2Swz32 => .cmd (encodeCmd 0x24 false)
  | .ps2Unswz32 => .cmd (encodeCmd 0x25 false)
  | .ps2Swz4 => .cmd (encodeCmd 0x26 false)
  | .ps2Unswz4 => .cmd (encodeCmd 0x27 false)
  | .subaSwz4 => .cmd (encodeCmd 0x28 false)
  | .subaUnswz4 => .cmd (encodeCmd 0x29 false)
  | .subaSwz8 => .cmd (encodeCmd 0x2A false)
  | .subaUnswz8 => .cmd (encodeCmd 0x2B false)
  | .subaSwz16 => .cmd (encodeCmd 0x2C false)
  | .subaUnswz16 => .cmd (encodeCmd 0x2D false)
  | .pspSwz => .cmd (encodeCmd 0x30 false)
  | .pspUnswz => .cmd (encodeCmd 0x31 false)
  | .readBits n => .micro false n
  | .readBitsR n => .micro true n
  | .bc6hMode0 f => .block (encodeBlock 0 f)
  | .bc6hMode1 f => .block (encodeBlock 1 f)
  | .bc6hMode2 f => .block (encodeBlock 2 f)
  | .bc6hMode3 f => .block (encodeBlock 3 f)
  | .bc6hMode4 f => .block (encodeBlock 4 f)
  | .bc6hMode5 f => .block (encodeBlock 5 f)
  | .bc6hMode6 f => .block (encodeBlock 6 f)
  | .bc6hMode7 f => .block (encodeBlock 7 f)
  | .bc6hMode8 f => .block (encodeBlock 8 f)
  | .bc6hMode9 f => .block (encodeBlock 9 f)
  | .bc6hMode10 f => .block (encodeBlock 10 f)
  | .bc6hMode11 f => .block (encodeBlock 11 f)
  | .bc6hMode12 f => .block (encodeBlock 12 f)
  | .bc6hMode13 f => .block (encodeBlock 13 f)
  | .bc6hModeRsv code => .block (code.setWidth 128)

end Sys2Proof
end

