-- ==== Sys2Proof/Machine/State.lean ====
section
/-! DEFINITION. The state of one core (10_state.md): the nine descriptor registers, the two buffers, the working registers
of the BC6H datapath, the PS2_IDX8 it is configured with and the host actions still to come; and the state after reset (70_reset_and_hazards.md R230). -/

namespace Sys2Proof.Machine

open Sys2Proof

/-- A buffer: a finite sequence of elements indexed from 0, of one of two kinds (20_memory.md R50). Log 1. -/
inductive Buffer where
  | bytes (es : List Byte)
  | words (es : List Word)
deriving DecidableEq, Repr

/-- The two buffers of a command (10_state.md R29). `aliased` is the model's own field: the platform handed SRC and DST
over with an element in common, which is all the core sees of their placement (20_memory.md R60, R62). Log 2. -/
structure Memory where
  src : Buffer
  dst : Buffer
  aliased : Bool
deriving DecidableEq, Repr

/-- MIDX: a mode index, RSV for a reserved code, or not yet set (10_state.md R25). -/
inductive ModeIx where
  | unset
  | rsv
  | mode (m : Fin 14)
deriving DecidableEq, Repr

/-- The working registers of the BC6H datapath (10_state.md R25, R26). `rdata` is the model's own field: the value the
last micro-operation returned (log 6). -/
structure Work where
  cur : Nat
  blk : Block
  mcode : BitVec 5
  midx : ModeIx
  part : BitVec 5
  ep : Rgb (Quad Int)
  h : Vector (Rgb Half) 16
  rdata : BitVec 16
deriving DecidableEq, Repr

/-- What the host does (30_encoding.md R83, 70_reset_and_hazards.md R230 and R233). -/
inductive HostAction where
  /-- SET: write a descriptor register by number; a write of register 0 starts a command (30_encoding.md R80). -/
  | setReg (n : Nat) (v : Word)
  /-- LOAD SRC: a fresh SRC with the listed elements (log 15). -/
  | loadSrc (b : Buffer)
  /-- MOVE SRC, DST: DST copied into a fresh SRC. -/
  | moveDstToSrc
  /-- The platform hands over both buffers, with an element in common or not (20_memory.md R60, R62; log 15). -/
  | handOver (src dst : Buffer) (overlap : Bool)
  /-- Reset of the core (70_reset_and_hazards.md R230). -/
  | resetCore
deriving DecidableEq, Repr

/-- The state of one core. Two fields are the model's own: `ps2Index`, the PS2_IDX8 the instance was configured with, which no
step changes and no register holds (70_reset_and_hazards.md R230, R233; log 14), and `pending`, what the host will do next,
in order (log 7). -/
structure State where
  cmd : Word
  width : Word
  height : Word
  esize : Word
  bpp : Word
  xcoord : Word
  ycoord : Word
  status : Word
  result : Word
  mem : Memory
  work : Work
  ps2Index : Config.Ps2Index
  pending : List HostAction
deriving DecidableEq, Repr

/-- How the model stops. The core itself never faults (60_exceptions.md R200, R206). -/
inductive Fault where
  /-- Raised by `step` alone, when the host writes a register number above 8: the register space is registers 0 to 8
  (10_state.md R29). Safe: the spec gives such an access no effect (log 9). -/
  | noSuchRegister (n : Nat)
deriving DecidableEq, Repr

/-- What the model refuses. A refusal of the SPEC (60_exceptions.md R200) is no refusal of the model: it is a next state. -/
inductive Refusal where
  /-- Raised by an arm of `exec` without a meaning; no arm is without one. Safe. -/
  | notModelled (mnemonic : String)
deriving DecidableEq, Repr

/-- The outcome of a step. -/
abbrev Out := Host.Outcome State Fault Refusal

/-- The working registers before anything is read: Init's values (70_reset_and_hazards.md R231) with MIDX unset, also
taken after reset, where the spec leaves them unspecified (R230; log 4). -/
def Work.clear : Work where
  cur := 0
  blk := 0
  mcode := 0
  midx := .unset
  part := 0
  ep := Rgb.all (Quad.all 0)
  h := Vector.replicate 16 (Rgb.all 0)
  rdata := 0

/-- The state after reset (70_reset_and_hazards.md R230): every descriptor register 0; no buffer handed over yet (log 3);
PS2_IDX8 the default of 43_ps2.md R153; no host action placed (log 7). -/
def State.reset : State where
  cmd := 0
  width := 0
  height := 0
  esize := 0
  bpp := 0
  xcoord := 0
  ycoord := 0
  status := 0
  result := 0
  mem := { src := .bytes [], dst := .bytes [], aliased := false }
  work := Work.clear
  ps2Index := .standard
  pending := []

end Sys2Proof.Machine
end

