-- ==== Sys2Proof/Machine/Flags.lean ====
section
/-! DEFINITION. STATUS, the only status or flag state of the core (10_state.md R23, 60_exceptions.md R201). -/

namespace Sys2Proof.Machine

open Sys2Proof

/-- The refusal reasons (60_exceptions.md R201). -/
inductive Reason where
  | badOp | param | shape | overlap | overrun
deriving DecidableEq, Repr

/-- The reason codes RF_BAD_OP, RF_PARAM, RF_SHAPE, RF_ALIAS and RF_OVERRUN (60_exceptions.md R201). -/
def Reason.code : Reason → Nat
  | .badOp => 1
  | .param => 2
  | .shape => 3
  | .overlap => 4
  | .overrun => 5

/-- A STATUS word: DONE in bit 0, REFUSED in bit 1, REASON in bits 7:4, every other bit 0 (10_state.md R23). -/
def statusWord (done refused : Bool) (reason : Nat) : Word :=
  BitVec.ofNat 32 ((if done then 1 else 0) + (if refused then 2 else 0) + reason % 16 * 16)

/-- STATUS after a command that completed. -/
def statusDone : Word := statusWord true false 0

/-- STATUS after a command that refused (60_exceptions.md R200 (d)). -/
def statusRefused (r : Reason) : Word := statusWord false true r.code

/-- STATUS.DONE. -/
def doneBit (w : Word) : Bool := w.getLsbD 0

/-- STATUS.REFUSED. -/
def refusedBit (w : Word) : Bool := w.getLsbD 1

/-- STATUS.REASON. -/
def reasonField (w : Word) : BitVec 4 := w.extractLsb' 4 4

end Sys2Proof.Machine
end

