-- ==== Sys2Proof/Machine/Ops.lean ====
section
/-! DEFINITION. The shared operations: buffer elements (20_memory.md R52, R56, R61, R63), descriptor registers
(10_state.md R21), the refusal and the completion of a command (60_exceptions.md R200, R202). The refusal is this core's
only exception; there is no trap entry and no return from one (60_exceptions.md R206). -/

namespace Sys2Proof.Machine

open Sys2Proof

/-! ## Buffer elements -/

/-- MemRead(SRC+i, n) (20_memory.md R52). -/
def memRead {α : Type} (buf : List α) (i n : Nat) : List α := (buf.drop i).take n

/-- MemWrite(DST+i, n, v) with n = v.length (20_memory.md R52). -/
def memWrite {α : Type} (buf : List α) (i : Nat) (v : List α) : List α :=
  buf.take i ++ v ++ buf.drop (i + v.length)

/-- One iteration of a swizzle over elements of `e` buffer elements: group `m.2` of `src` goes to group `m.1` of `dst`,
and is skipped when either group is outside its buffer (20_memory.md R61). -/
def copyGroup {α : Type} (e : Nat) (src dst : List α) (m : Nat × Nat) : List α :=
  if m.1 * e + e ≤ dst.length ∧ m.2 * e + e ≤ src.length then
    memWrite dst (m.1 * e) (memRead src (m.2 * e) e)
  else dst

/-- A whole swizzle: DST of SRC's length is filled with `fill` (20_memory.md R63), then the moves (destination group,
source group) happen in order, so that a later write stays (R58). -/
def transfer {α : Type} (fill : α) (e : Nat) (moves : List (Nat × Nat)) (src : List α) : List α :=
  moves.foldl (copyGroup e src) (List.replicate src.length fill)

/-- The 4-bit pixel p of a byte buffer: bits 3:0 of byte p/2 for even p, bits 7:4 for odd p (20_memory.md R56). -/
def readNibble (buf : List Byte) (p : Nat) : Byte :=
  ((buf.getD (p / 2) 0) >>> (4 * (p % 2))) &&& 0x0F#8

/-- Pixel p replaced by the low 4 bits of v, the other half of its byte kept (20_memory.md R56). -/
def writeNibble (buf : List Byte) (p : Nat) (v : Byte) : List Byte :=
  buf.set (p / 2) (((buf.getD (p / 2) 0) &&& ~~~(0x0F#8 <<< (4 * (p % 2)))) ||| ((v &&& 0x0F#8) <<< (4 * (p % 2))))

/-- One iteration of a 4-bit swizzle, with the skip rule over pixel indices (20_memory.md R61; 43_ps2.md R159). -/
def copyNibble (src dst : List Byte) (m : Nat × Nat) : List Byte :=
  if m.1 < 2 * dst.length ∧ m.2 < 2 * src.length then writeNibble dst m.1 (readNibble src m.2) else dst

/-- A whole 4-bit swizzle. -/
def transferNibbles (moves : List (Nat × Nat)) (src : List Byte) : List Byte :=
  moves.foldl (copyNibble src) (List.replicate src.length Config.fillByte)

/-! ## Buffers -/

/-- len(B), in elements. -/
def Buffer.len : Buffer → Nat
  | .bytes es => es.length
  | .words es => es.length

/-- Whether the buffer is a byte buffer. -/
def Buffer.isBytes : Buffer → Bool
  | .bytes _ => true
  | .words _ => false

/-- Whether the buffer is a word buffer. -/
def Buffer.isWords : Buffer → Bool
  | .bytes _ => false
  | .words _ => true

/-- The elements of a byte buffer. -/
def Buffer.asBytes : Buffer → List Byte
  | .bytes es => es
  | .words _ => []

/-- The elements of a word buffer. -/
def Buffer.asWords : Buffer → List Word
  | .bytes _ => []
  | .words es => es

/-- SRC and DST share an element (20_memory.md R62); an empty SRC shares none. -/
def Memory.overlap (m : Memory) : Bool := m.aliased && decide (m.src.len ≠ 0)

/-- The canonical form of the buffers: the mark of a shared element stands only where an element can be shared, so that
equal memories are equal data. -/
def Memory.wf (m : Memory) : Bool := !m.aliased || decide (m.src.len ≠ 0)

/-- DST replaced by a command's output. -/
def Memory.setDst (m : Memory) (b : Buffer) : Memory := { m with dst := b }

/-- LOAD SRC: a fresh SRC, which shares nothing with DST (30_encoding.md R83, log 15). -/
def Memory.loadSrc (m : Memory) (b : Buffer) : Memory := { m with src := b, aliased := false }

/-- MOVE SRC, DST (30_encoding.md R83). -/
def Memory.moveDstToSrc (m : Memory) : Memory := m.loadSrc m.dst

/-- The platform hands over both buffers (20_memory.md R60, R62). -/
def Memory.handOver (src dst : Buffer) (overlap : Bool) : Memory :=
  { src := src, dst := dst, aliased := overlap && decide (src.len ≠ 0) }

/-- The state with its DST replaced. -/
def State.setDst (s : State) (b : Buffer) : State := { s with mem := s.mem.setDst b }

/-! ## Descriptor registers -/

/-- A host read of a descriptor register, none above number 8; reading changes nothing (10_state.md R21, 20_memory.md R59). -/
def State.readReg (s : State) : Nat → Option Word
  | 0 => some s.cmd
  | 1 => some s.width
  | 2 => some s.height
  | 3 => some s.esize
  | 4 => some s.bpp
  | 5 => some s.xcoord
  | 6 => some s.ycoord
  | 7 => some s.status
  | 8 => some s.result
  | _ => none

/-- The register change of a host write: stored as written, but ignored for STATUS and RESULT; none above number 8. What
a write of CMD starts is `hostWrite`'s (10_state.md R21). -/
def State.writeReg (s : State) (v : Word) : Nat → Option State
  | 0 => some { s with cmd := v }
  | 1 => some { s with width := v }
  | 2 => some { s with height := v }
  | 3 => some { s with esize := v }
  | 4 => some { s with bpp := v }
  | 5 => some { s with xcoord := v }
  | 6 => some { s with ycoord := v }
  | 7 => some s
  | 8 => some s
  | _ => none

/-! ## Refusal and completion -/

/-- `raise Refuse(reason)`: STATUS reports it and nothing else changes (60_exceptions.md R200). -/
def refuse (r : Reason) (s : State) : State := { s with status := statusRefused r }

/-- The end of a command that completed: STATUS is DONE (10_state.md R23). -/
def complete (s : State) : State := { s with status := statusDone }

/-- The checks of a command in the order of 60_exceptions.md R202 (RF_BAD_OP is the decoder's): the first that fails. -/
def firstRefusal (paramOk shapeOk overlap : Bool) : Option Reason :=
  if !paramOk then some .param
  else if !shapeOk then some .shape
  else if overlap then some .overlap
  else none

/-- A command: refuse with the first failing check, else run the body (60_exceptions.md R202). -/
def command (check : Option Reason) (body : State → State) (s : State) : State :=
  match check with
  | some r => refuse r s
  | none => body s

/-- A command whose body is a function of the bytes of SRC into a byte DST of the same length (20_memory.md R51). -/
def byteCommand (check : Option Reason) (f : List Byte → List Byte) (s : State) : State :=
  command check (fun s => complete (s.setDst (.bytes (f s.mem.src.asBytes)))) s

/-- A command whose body is a function of the words of SRC into a word DST of the same length (20_memory.md R51). -/
def wordCommand (check : Option Reason) (f : List Word → List Word) (s : State) : State :=
  command check (fun s => complete (s.setDst (.words (f s.mem.src.asWords)))) s

/-! ## The reset of a running core -/

/-- Reset (70_reset_and_hazards.md R230): the descriptor registers are 0, the buffers are not touched, the working
registers, unspecified, take the values of log 4, and the configuration stays. The host's own list of actions goes on (log 16). -/
def State.resetCore (s : State) : State :=
  { State.reset with mem := s.mem, ps2Index := s.ps2Index, pending := s.pending }

end Sys2Proof.Machine
end

