-- ==== Sys2Proof/Machine/Operands.lean ====
section
/-! DEFINITION. The operands of the commands: the legal values of the descriptor registers, the shapes of SRC
(20_memory.md R51), and the index functions of the swizzles (42_morton.md R140, 43_ps2.md R150, R153, R158, R163,
44_psp.md R180) with the order of their iterations. -/

namespace Sys2Proof.Machine

open Sys2Proof

/-! ## Register operands -/

/-- WIDTH as a number. -/
def State.w (s : State) : Nat := s.width.toNat

/-- HEIGHT as a number. -/
def State.hgt (s : State) : Nat := s.height.toNat

/-- ESIZE as a number. -/
def State.e (s : State) : Nat := s.esize.toNat

/-- BPP as a number. -/
def State.bits (s : State) : Nat := s.bpp.toNat

/-- WIDTH and HEIGHT are in 1..MAX_DIM (60_exceptions.md R201, RF_SHAPE). -/
def dimsOk (s : State) : Bool :=
  decide (1 ≤ s.w) && decide (s.w ≤ Config.maxDim) && decide (1 ≤ s.hgt) && decide (s.hgt ≤ Config.maxDim)

/-- The pixels of a `w` x `h` image in row-major order, as (x, y). -/
def grid (w h : Nat) : List (Nat × Nat) :=
  (List.range h).flatMap fun y => (List.range w).map fun x => (x, y)

/-- The moves of a swizzle whose index function is `ix`: linear element `y*w + x` goes to `ix x y`. -/
def swizzleMoves (ix : Nat → Nat → Nat) (w h : Nat) : List (Nat × Nat) :=
  (grid w h).map fun p => (ix p.1 p.2, p.2 * w + p.1)

/-- The moves of the unswizzle: source and destination exchanged (42_morton.md R143, 44_psp.md R182). -/
def unswizzleMoves (ix : Nat → Nat → Nat) (w h : Nat) : List (Nat × Nat) :=
  (grid w h).map fun p => (p.2 * w + p.1, ix p.1 p.2)

/-- The moves of a swizzle by a map of linear pixel indices (43_ps2.md R159, R166). -/
def mapMoves (f : Nat → Nat) (n : Nat) : List (Nat × Nat) := (List.range n).map fun p => (f p, p)

/-- The moves of its unswizzle (43_ps2.md R160, R167). -/
def unmapMoves (f : Nat → Nat) (n : Nat) : List (Nat × Nat) := (List.range n).map fun p => (p, f p)

/-! ## Morton -/

/-- `spread(v)` (42_morton.md R140). -/
def spread (v : Word) : Word :=
  let v := v &&& 0x0000FFFF#32
  let v := (v ||| (v <<< 8)) &&& 0x00FF00FF#32
  let v := (v ||| (v <<< 4)) &&& 0x0F0F0F0F#32
  let v := (v ||| (v <<< 2)) &&& 0x33333333#32
  (v ||| (v <<< 1)) &&& 0x55555555#32

/-- `morton_index(x, y)` as a register value (42_morton.md R140). -/
def mortonWord (x y : Word) : Word := spread x ||| (spread y <<< 1)

/-- `morton_index(x, y)` as an element index. -/
def mortonIndex (x y : Nat) : Nat := (mortonWord (BitVec.ofNat 32 x) (BitVec.ofNat 32 y)).toNat

/-- The coordinates of MORTON_INDEX are at most 65535 (42_morton.md R141). -/
def mortonCoordsOk (s : State) : Bool := decide (s.xcoord.toNat ≤ 65535) && decide (s.ycoord.toNat ≤ 65535)

/-- The checks of MORTON_SWZ and MORTON_UNSWZ (42_morton.md R142). -/
def mortonCheck (s : State) : Option Reason :=
  firstRefusal (decide (1 ≤ s.e))
    (dimsOk s && s.mem.src.isBytes && decide (s.mem.src.len % s.e = 0) && decide (s.w * s.hgt * s.e ≤ s.mem.src.len))
    s.mem.overlap

/-! ## PS2 palette -/

/-- The moves of PAL_STRIPE in their nesting order (43_ps2.md R150). -/
def paletteMoves (n : Nat) : List (Nat × Nat) :=
  (List.range (n / 32)).flatMap fun part =>
    (List.range 2).flatMap fun block =>
      (List.range 2).flatMap fun stripe =>
        (List.range 8).map fun color =>
          (part * 32 + block * 16 + stripe * 8 + color, part * 32 + block * 8 + stripe * 16 + color)

/-- swap34(i): bits 3 and 4 of i exchanged (43_ps2.md R150), by the digits of i. -/
def swap34 (i : Nat) : Nat := i / 32 * 32 + (i / 8 % 2) * 16 + (i / 16 % 2) * 8 + i % 8

/-- The checks of PAL_STRIPE and PAL_UNSTRIPE (43_ps2.md R150; the buffer kind, 20_memory.md R51, log 10). -/
def paletteCheck (s : State) : Option Reason :=
  firstRefusal (decide (s.mem.src.len ≠ 0) && decide (s.mem.src.len % 32 = 0)) s.mem.src.isWords s.mem.overlap

/-! ## PS2 8bpp and 32bpp -/

/-- The default of the parameter PS2_IDX8(x, y, W) (43_ps2.md R153). Clearing the bits of a mask `2^k - 1` is
dividing by `2^k` and multiplying again. -/
def ps2Idx8 (w x y : Nat) : Nat :=
  let blockLocation := (y / 16 * 16) * w + (x / 16 * 16) * 2
  let swapSelector := (((y + 2) >>> 2) &&& 1) * 4
  let posY := (((y / 4 * 4) >>> 1) + (y &&& 1)) &&& 7
  let columnLocation := posY * w * 2 + ((x + swapSelector) &&& 7) * 4
  let byteNum := ((y >>> 1) &&& 1) + ((x >>> 2) &&& 2)
  blockLocation + columnLocation + byteNum

/-- PS2_IDX8 as configured: the default or its replacement (00_scope.md R7, log 14). -/
def ps2IdxOf : Config.Ps2Index → (w x y : Nat) → Nat
  | .standard => ps2Idx8
  | .custom k => Config.customPs2Idx8 k

/-- PS2_IDX8 of this instance, for its WIDTH. -/
def State.ps2Idx (s : State) : (x y : Nat) → Nat := ps2IdxOf s.ps2Index s.w

/-- The checks of PS2_SWZ8 and PS2_UNSWZ8 (43_ps2.md R154), and of SUBA_SWZ8 and SUBA_UNSWZ8 (R166). -/
def bytePixelCheck (s : State) : Option Reason :=
  firstRefusal true (dimsOk s && s.mem.src.isBytes && decide (s.w * s.hgt ≤ s.mem.src.len)) s.mem.overlap

/-- The checks of PS2_SWZ32 and PS2_UNSWZ32 (43_ps2.md R161). -/
def wordPixelCheck (s : State) : Option Reason :=
  firstRefusal true (dimsOk s && s.mem.src.isWords && decide (s.w * s.hgt ≤ s.mem.src.len)) s.mem.overlap

/-! ## PS2 4-bit and SUBA -/

/-- The checks of the 4-bit swizzles (43_ps2.md R159, R164). -/
def nibblePixelCheck (s : State) : Option Reason :=
  firstRefusal true (dimsOk s && s.mem.src.isBytes && decide (s.w * s.hgt ≤ 2 * s.mem.src.len)) s.mem.overlap

/-- The checks of the 16-bit swizzles (43_ps2.md R168). -/
def pairPixelCheck (s : State) : Option Reason :=
  firstRefusal true
    (dimsOk s && s.mem.src.isBytes && decide (s.mem.src.len % 2 = 0) && decide (2 * (s.w * s.hgt) ≤ s.mem.src.len))
    s.mem.overlap

/-- A permutation of `0..n-1` as a function of numbers, the identity above. -/
def permAt {n : Nat} (e : Equiv.Perm (Fin n)) (i : Nat) : Nat := if h : i < n then (e ⟨i, h⟩).val else i

/-- The number, in row-major order, of the `pw` x `ph` tile that holds pixel `p` of a `w`-wide image. -/
def tileOf (pw ph w p : Nat) : Nat := (p / w / ph) * (w / pw) + p % w / pw

/-- The place, in row-major order, of pixel `p` of a `w`-wide image inside its `pw` x `ph` tile. -/
def inTile (pw ph w p : Nat) : Nat := (p / w % ph) * pw + p % w % pw

/-- Pixel `p` lies in a page of side `a` that lies wholly inside the `w` x `h` image. -/
def inWholePage (a w h p : Nat) : Bool := decide ((p % w / a + 1) * a ≤ w) && decide ((p / w / a + 1) * a ≤ h)

/-- A map of the linear pixel indices of a `w`-wide image that takes each `pw` x `ph` tile, numbered in row-major order,
to one run of `pw*ph` slots: `unit` says which run a tile goes to, `slot` where a pixel of it goes in that run. -/
def tileMap (pw ph : Nat) (unit : Nat → Nat) (slot : Nat → Nat → Nat) (w p : Nat) : Nat :=
  unit (tileOf pw ph w p) * (pw * ph) + slot (tileOf pw ph w p) (inTile pw ph w p)

/-- The tables of the EA-style swizzle (43_ps2.md R156, R157). -/
def ea4Tables : Config.Ea4Tables := ⟨Config.ea4UnswizzleLut, Config.ea4Swizzle4Lut, blockTable4, blockTable32⟩

/-- EA4_MAP off the page grid: in a whole page every 32x16 block goes to one unit of 512 pixels, distinct blocks of the page
to distinct units (43_ps2.md R158 (c)); elsewhere nothing is known (log 12). DESIGN CHOICE, unsafe: a unit begins at a
multiple of 512 pixel slots, where R158 says only "one 256-byte unit" (log 29). -/
def ea4MapOffGrid (w h p : Nat) : Nat :=
  if inWholePage 128 w h p then
    Config.ea4PageUnit ea4Tables w h (tileOf 128 128 w p) (tileOf 32 16 128 (inTile 128 128 w p)) * 512 +
      Config.ea4Free ea4Tables w h p % 512
  else Config.ea4Free ea4Tables w h p

/-- EA4_MAP(W, H, p), OPEN (43_ps2.md R158): on the 128x128 page grid the 32x16 blocks are permuted into the 256-byte units
of 512 pixels, and the pixels of each block inside its unit (log 12). -/
def ea4Map (w h p : Nat) : Nat :=
  if w % 128 = 0 ∧ h % 128 = 0 then
    tileMap 32 16 (permAt (Config.ea4Unit ea4Tables w h ((w / 32) * (h / 16))))
      (fun k => permAt (Config.ea4Slot ea4Tables w h k)) w p
  else ea4MapOffGrid w h p

/-- The side of a SUBA page in pixels (43_ps2.md R163). -/
def subaSide : Config.SubaKind → Nat
  | .suba4 => 128
  | .suba8 => 128
  | .suba16 => 64

/-- A slot `q` of a run that begins at `start`, kept off the high halves of the bytes at and after the one that holds the
last of an odd number `n` of 4-bit pixels, without leaving the run (43_ps2.md R164, log 13). -/
def offOddTail (n start q : Nat) : Nat :=
  if n % 2 = 1 ∧ q % 2 = 1 ∧ n ≤ q then (if start < q then q - 1 else q + 1) else q

/-- The first slot of the run that pixel `p` goes to off the page grid: its page's run where the page lies wholly inside the
image, else the whole buffer, about which nothing is known (43_ps2.md R163 (c), log 13). -/
def subaRunStart (k : Config.SubaKind) (w h p : Nat) : Nat :=
  if inWholePage (subaSide k) w h p then Config.subaRun k w h (tileOf (subaSide k) (subaSide k) w p) else 0

/-- The place of pixel `p` in that run. -/
def subaRunSlot (k : Config.SubaKind) (w h p : Nat) : Nat :=
  if inWholePage (subaSide k) w h p then Config.subaFree k w h p % (subaSide k * subaSide k) else Config.subaFree k w h p

/-- SUBA_MAP off the page grid; an odd number of 4-bit pixels leaves the last high half byte alone (43_ps2.md R164). -/
def subaMapOffGrid (k : Config.SubaKind) (w h p : Nat) : Nat :=
  let start := subaRunStart k w h p
  let q := start + subaRunSlot k w h p
  match k with
  | .suba4 => offOddTail (w * h) start q
  | .suba8 | .suba16 => q

/-- SUBA_MAP4, SUBA_MAP8 and SUBA_MAP16(W, H, p), OPEN (43_ps2.md R163): on the page grid the pages are permuted into the
runs of slots, and the pixels of each page inside its run (log 13). -/
def subaMap (k : Config.SubaKind) (w h p : Nat) : Nat :=
  let a := subaSide k
  if w % a = 0 ∧ h % a = 0 then
    tileMap a a (permAt (Config.subaPage k w h ((w / a) * (h / a))))
      (fun page => permAt (Config.subaSlot k w h page (a * a))) w p
  else subaMapOffGrid k w h p

/-! ## PSP -/

/-- RW, the row width in bytes (44_psp.md R180). -/
def pspRowWidth (s : State) : Nat := s.w * s.bits / 8

/-- PSP_IDX(x, y) for rows of `rw` bytes (44_psp.md R180). -/
def pspIndex (rw x y : Nat) : Nat :=
  let rb := rw / 16
  let blockIndex := x / 16 + (y / 8) * rb
  blockIndex * 128 + x % 16 + (y % 8) * 16

/-- The checks of PSP_SWZ and PSP_UNSWZ (44_psp.md R181). -/
def pspCheck (s : State) : Option Reason :=
  firstRefusal (s.bits == 4 || s.bits == 8 || s.bits == 16 || s.bits == 32)
    (dimsOk s && s.mem.src.isBytes && decide (s.hgt * pspRowWidth s ≤ s.mem.src.len)) s.mem.overlap

/-! ## BC6H -/

/-- The checks of BC6H_DEC and BC6H_DEC_F (41_bc6h.md R110; the buffer kind, 20_memory.md R51, log 10). -/
def bc6hCheck (s : State) : Option Reason :=
  firstRefusal (decide (s.mem.src.len = 16)) s.mem.src.isBytes s.mem.overlap

end Sys2Proof.Machine
end

