-- ==== Sys2Proof/Machine/Bc6h.lean ====
section
/-! DEFINITION. The BC6H block decompressor (41_bc6h.md): the colour pipeline on a block's fields (R115 to R124), the
meanings of the block modes (R112, R113 to R124), and the commands BC6H_DEC (R110) and BC6H_DEC_F (R126). -/

namespace Sys2Proof.Machine

open Sys2Proof

/-! ## Arithmetic (00_scope.md R9) -/

/-- `a >> k`, the arithmetic right shift: floor(a / 2^k), also for negative a (00_scope.md R9). -/
def asr (a : Int) (k : Nat) : Int := a / 2 ^ k

/-- `zext_n(v)` = `v & mask(n)`, in 0..2^n-1 also for negative v (00_scope.md R9). -/
def zext (n : Nat) (v : Int) : Int := v % 2 ^ n

/-- `sext_n(v)` (00_scope.md R9). -/
def sext (n : Nat) (v : Int) : Int :=
  if (zext n v).toNat.testBit (n - 1) then zext n v - 2 ^ n else zext n v

/-! ## Endpoints -/

/-- `f` on the endpoints 1..NE-1: x, and y and z where the block has two regions (41_bc6h.md R116, NE). -/
def mapDeltas (two : Bool) (f : Int → Int) (q : Quad Int) : Quad Int :=
  if two then { q with x := f q.x, y := f q.y, z := f q.z } else { q with x := f q.x }

/-- `f` on the endpoints in use, 0..NE-1. -/
def mapInUse (two : Bool) (f : Int → Int) (q : Quad Int) : Quad Int :=
  mapDeltas two f { q with w := f q.w }

/-- SignExtendBase of one channel (41_bc6h.md R115). -/
def signExtendBase (d : ModeDesc) (signed : Bool) (q : Quad Int) : Quad Int :=
  if signed then { q with w := sext d.wb q.w } else q

/-- SignExtendDeltas of one channel (41_bc6h.md R116): not in the direct modes with S = 0. -/
def signExtendDeltas (d : ModeDesc) (c : Chan) (signed : Bool) (q : Quad Int) : Quad Int :=
  if d.transformed || signed then mapDeltas d.twoRegions (sext (d.delta c)) q else q

/-- TransformInverse of one delta against the base (41_bc6h.md R117). -/
def transformInverse (wb : Nat) (signed : Bool) (base delta : Int) : Int :=
  if signed then sext wb (zext wb (delta + base)) else zext wb (delta + base)

/-- TransformInverse of one channel (41_bc6h.md R117): in the transformed modes only. -/
def transformInverses (d : ModeDesc) (signed : Bool) (q : Quad Int) : Quad Int :=
  if d.transformed then mapDeltas d.twoRegions (transformInverse d.wb signed q.w) q else q

/-- Unquantize, unsigned path (41_bc6h.md R118). -/
def unquantizeUnsigned (bits : Nat) (v : Int) : Int :=
  if 15 ≤ bits then v
  else if v = 0 then 0
  else if v = 2 ^ bits - 1 then 0xFFFF
  else asr (v * 2 ^ 16 + 0x8000) bits

/-- The magnitude of the signed path (41_bc6h.md R119). -/
def unquantizeMagnitude (bits : Nat) (a : Int) : Int :=
  if a = 0 then 0
  else if 2 ^ (bits - 1) - 1 ≤ a then 0x7FFF
  else asr (a * 2 ^ 15 + 0x4000) (bits - 1)

/-- Unquantize, signed path (41_bc6h.md R119). -/
def unquantizeSigned (bits : Nat) (v : Int) : Int :=
  if 16 ≤ bits then v
  else if v < 0 then -(unquantizeMagnitude bits (v.natAbs : Int))
  else unquantizeMagnitude bits (v.natAbs : Int)

/-- Unquantize of an endpoint value of width `bits` (41_bc6h.md R118, R119). -/
def unquantize (bits : Nat) (signed : Bool) (v : Int) : Int :=
  if signed then unquantizeSigned bits v else unquantizeUnsigned bits v

/-- One channel's endpoints after sign extension and transform inverse (41_bc6h.md R115 to R117). -/
def reconstruct (d : ModeDesc) (c : Chan) (signed : Bool) (q : Quad Int) : Quad Int :=
  transformInverses d signed (signExtendDeltas d c signed (signExtendBase d signed q))

/-- One channel's endpoints through sign extension, transform inverse and unquantize (41_bc6h.md R110). -/
def channelEndpoints (d : ModeDesc) (c : Chan) (signed : Bool) (raw : Quad Nat) : Quad Int :=
  mapInUse d.twoRegions (unquantize d.wb signed) (reconstruct d c signed (raw.map Int.ofNat))

/-- EP after unquantize (41_bc6h.md R110): every channel alike but for its delta width (R128). -/
def finalEndpoints (d : ModeDesc) (signed : Bool) (raw : Rgb (Quad Nat)) : Rgb (Quad Int) where
  r := channelEndpoints d .r signed raw.r
  g := channelEndpoints d .g signed raw.g
  b := channelEndpoints d .b signed raw.b

/-! ## Pixels -/

/-- Interp(a, b, wt) (41_bc6h.md R123). -/
def interp (a b : Int) (wt : Nat) : Int := asr (a * (64 - wt) + b * wt + 32) 6

/-- Finish(v, S) (41_bc6h.md R124). -/
def finish (signed : Bool) (v : Int) : Half :=
  if signed then
    let t := if v < 0 then -(asr (-v * 31) 5) else asr (v * 31) 5
    if t < 0 then BitVec.ofNat 16 (0x8000 ||| (-t).toNat) else BitVec.ofInt 16 t
  else BitVec.ofInt 16 (asr (v * 31) 6)

/-- The subset of pixel k: 0 in the one-region modes (41_bc6h.md R120). -/
def subsetOf (d : ModeDesc) (part : BitVec 5) (k : Nat) : Nat := if d.twoRegions then partitionOf part k else 0

/-- The low and high endpoint of a subset: w and x, or y and z (41_bc6h.md R120). -/
def subsetEnds (q : Quad Int) (sub : Nat) : Int × Int := if sub = 0 then (q.w, q.x) else (q.y, q.z)

/-- One finished channel value of a pixel (41_bc6h.md R110, R123, R124). -/
def channelValue (signed : Bool) (wt sub : Nat) (q : Quad Int) : Half :=
  finish signed (interp (subsetEnds q sub).1 (subsetEnds q sub).2 wt)

/-- H[k] (41_bc6h.md R110): pixel k from the final endpoints and its index. -/
def pixelValue (m : Fin 14) (signed : Bool) (ep : Rgb (Quad Int)) (part : BitVec 5) (idx : List Nat) (k : Nat) : Rgb Half :=
  ep.map (channelValue signed (weightOf m (idx.getD k 0)) (subsetOf (modeDesc m) part k))

/-- H (10_state.md R25). -/
def blockPixels (m : Fin 14) (signed : Bool) (ep : Rgb (Quad Int)) (part : BitVec 5) (idx : List Nat) :
    Vector (Rgb Half) 16 :=
  Vector.ofFn fun k => pixelValue m signed ep part idx k.val

/-! ## The meanings of the block modes -/

/-- A block of mode index `m` with fields `f` through the colour pipeline, up to and including H (41_bc6h.md R113 to
R124). CUR and BLK belong to the reads that gave the fields; STATUS and DST belong to the command (log 18). -/
def runMode (m : Fin 14) (signed : Bool) (f : BlockFields) (s : State) : State :=
  let ep := finalEndpoints (modeDesc m) signed f.ep
  { s with work := { s.work with
      mcode := BitVec.ofNat 5 (modeDesc m).code
      midx := .mode m
      part := f.part
      ep := ep
      h := blockPixels m signed ep f.part f.idx } }

/-- CMD.S, the `signed` argument of the running command (10_state.md R22). -/
def State.signed (s : State) : Bool := cmdS s.cmd

/-- BC6H_MODE0 (30_encoding.md R77 mode index 0). -/
def execBc6hMode0 (f : BlockFields) (s : State) : Out := .next (runMode 0 s.signed f s)

/-- BC6H_MODE1 (30_encoding.md R77 mode index 1). -/
def execBc6hMode1 (f : BlockFields) (s : State) : Out := .next (runMode 1 s.signed f s)

/-- BC6H_MODE2 (30_encoding.md R77 mode index 2). -/
def execBc6hMode2 (f : BlockFields) (s : State) : Out := .next (runMode 2 s.signed f s)

/-- BC6H_MODE3 (30_encoding.md R77 mode index 3). -/
def execBc6hMode3 (f : BlockFields) (s : State) : Out := .next (runMode 3 s.signed f s)

/-- BC6H_MODE4 (30_encoding.md R77 mode index 4). -/
def execBc6hMode4 (f : BlockFields) (s : State) : Out := .next (runMode 4 s.signed f s)

/-- BC6H_MODE5 (30_encoding.md R77 mode index 5). -/
def execBc6hMode5 (f : BlockFields) (s : State) : Out := .next (runMode 5 s.signed f s)

/-- BC6H_MODE6 (30_encoding.md R77 mode index 6). -/
def execBc6hMode6 (f : BlockFields) (s : State) : Out := .next (runMode 6 s.signed f s)

/-- BC6H_MODE7 (30_encoding.md R77 mode index 7). -/
def execBc6hMode7 (f : BlockFields) (s : State) : Out := .next (runMode 7 s.signed f s)

/-- BC6H_MODE8 (30_encoding.md R77 mode index 8). -/
def execBc6hMode8 (f : BlockFields) (s : State) : Out := .next (runMode 8 s.signed f s)

/-- BC6H_MODE9 (30_encoding.md R77 mode index 9). -/
def execBc6hMode9 (f : BlockFields) (s : State) : Out := .next (runMode 9 s.signed f s)

/-- BC6H_MODE10 (30_encoding.md R77 mode index 10). -/
def execBc6hMode10 (f : BlockFields) (s : State) : Out := .next (runMode 10 s.signed f s)

/-- BC6H_MODE11 (30_encoding.md R77 mode index 11). -/
def execBc6hMode11 (f : BlockFields) (s : State) : Out := .next (runMode 11 s.signed f s)

/-- BC6H_MODE12 (30_encoding.md R77 mode index 12). -/
def execBc6hMode12 (f : BlockFields) (s : State) : Out := .next (runMode 12 s.signed f s)

/-- BC6H_MODE13 (30_encoding.md R77 mode index 13). -/
def execBc6hMode13 (f : BlockFields) (s : State) : Out := .next (runMode 13 s.signed f s)

/-- Opaque black, the pixel of a reserved mode (41_bc6h.md R112). -/
def reservedPixel : Word := 0xFF000000#32

/-- A block with a reserved code: all 16 DST words are opaque black and nothing further is read (41_bc6h.md R112). -/
def runReserved (code : BitVec 5) (s : State) : State :=
  { s with
    mem := s.mem.setDst (.words (List.replicate 16 reservedPixel))
    work := { s.work with mcode := code, midx := .rsv } }

/-- BC6H_MODE_RSV (30_encoding.md R74, 41_bc6h.md R112). -/
def execBc6hModeRsv (code : BitVec 5) (s : State) : Out := .next (runReserved code s)

/-! ## The commands -/

/-- Init() (70_reset_and_hazards.md R231): every working register cleared, BLK the 16 bytes of SRC. -/
def initWork (b : Block) (s : State) : State := { s with work := { Work.clear with blk := b } }

/-- What the reads and the pipeline of one block do to the state (41_bc6h.md R110, up to H; R112). -/
def runBlock (signed : Bool) (p : ParsedBlock) (s : State) : State :=
  let s := { s with work := { s.work with cur := p.cur } }
  match p.mode with
  | none => runReserved p.code s
  | some m => runMode m signed p.fields s

/-- The 8-bit channels of the decoded pixels: 0 for a reserved mode, else BC6H_TO8 of H (41_bc6h.md R112, R125). -/
def pixelBytes (k : Work) : List (Rgb Byte) :=
  match k.midx with
  | .rsv => List.replicate 16 (Rgb.all 0)
  | .unset | .mode _ => k.h.toList.map (Rgb.map Config.bc6hTo8)

/-- A packed ARGB word with alpha 255 (20_memory.md R54, 41_bc6h.md R125). -/
def packArgb (c : Rgb Byte) : Word :=
  0xFF000000#32 ||| (c.r.setWidth 32 <<< 16) ||| (c.g.setWidth 32 <<< 8) ||| c.b.setWidth 32

/-- The body both commands share: Init, the block, then DST written from the 8-bit channels by `f`, and STATUS DONE
(41_bc6h.md R110, R125, R126). A read past the block would refuse with RF_OVERRUN (40_bitstream.md R100). -/
def bc6hBody (signed : Bool) (f : Rgb Byte → Rgb Byte) (s : State) : State :=
  let b := blockOfBytes s.mem.src.asBytes
  match parseBlock b with
  | none => refuse .overrun s
  | some p =>
    let t := runBlock signed p (initWork b s)
    complete (t.setDst (.words ((pixelBytes t.work).map fun c => packArgb (f c))))

/-- BC6H_DEC (41_bc6h.md R110). -/
def execBc6hDec (signed : Bool) (s : State) : Out := .next (command (bc6hCheck s) (bc6hBody signed id) s)

/-! ### The float round trip of BC6H_DEC_F -/

/-- A non-negative binary floating value `mant / 2^scale`. -/
structure Float24 where
  mant : Nat
  scale : Nat
deriving DecidableEq, Repr

/-- `num / den` rounded to the nearest integer, ties to even (IEEE 754 round-to-nearest, 41_bc6h.md R126). -/
def roundEven (num den : Nat) : Nat :=
  let q := num / den
  let r := num % den
  if 2 * r < den then q else if den < 2 * r then q + 1 else q + q % 2

/-- `num / den` rounded to a binary32 significand of 24 bits: the least scale with a quotient of at least 2^23
(41_bc6h.md R126; log 19). -/
def roundBinary32 (num den : Nat) : Float24 :=
  match (List.range 64).find? (fun e => decide (den * 2 ^ 23 ≤ num * 2 ^ e)) with
  | none => ⟨0, 0⟩
  | some e => ⟨roundEven (num * 2 ^ e) den, e⟩

/-- `q = float32(c) / 255.0f` (41_bc6h.md R126). -/
def normalizeChannel (c : Byte) : Float24 := roundBinary32 c.toNat 255

/-- `toInt(q * 255.0f)`, the product rounded and its fraction dropped (41_bc6h.md R126). -/
def rescaleChannel (q : Float24) : Byte :=
  let p := roundBinary32 (q.mant * 255) (2 ^ q.scale)
  BitVec.ofNat 8 (p.mant / 2 ^ p.scale)

/-- One channel through the float round trip (41_bc6h.md R126). -/
def floatRoundTrip (c : Byte) : Byte := rescaleChannel (normalizeChannel c)

/-- BC6H_DEC_F (41_bc6h.md R126). -/
def execBc6hDecF (signed : Bool) (s : State) : Out :=
  .next (command (bc6hCheck s) (bc6hBody signed (Rgb.map floatRoundTrip)) s)

end Sys2Proof.Machine
end

