-- ==== Sys2Proof/Machine/Bitstream.lean ====
section
/-! DEFINITION. The micro-operations of the bitstream reader (40_bitstream.md R100, R101) on the working registers BLK and
CUR. The BC6H commands issue them; the host cannot (log 17). -/

namespace Sys2Proof.Machine

open Sys2Proof

/-- A micro-operation that read `v` with width `n`: CUR advances by n and the value is delivered; or RF_OVERRUN. -/
def deliverRead (n : Nat) (v : Option Nat) (s : State) : State :=
  match v with
  | none => refuse .overrun s
  | some v => { s with work := { s.work with cur := s.work.cur + n, rdata := BitVec.ofNat 16 v } }

/-- READ_BITS (40_bitstream.md R100). -/
def execReadBits (n : Nat) (s : State) : Out := .next (deliverRead n (readBits s.work.blk s.work.cur n) s)

/-- READ_BITS_R (40_bitstream.md R101). -/
def execReadBitsR (n : Nat) (s : State) : Out := .next (deliverRead n (readBitsR s.work.blk s.work.cur n) s)

end Sys2Proof.Machine
end

