-- ==== Sys2Proof/Machine/Morton.lean ====
section
/-! DEFINITION. The Morton engine (42_morton.md): MORTON_INDEX, MORTON_SWZ, MORTON_UNSWZ. -/

namespace Sys2Proof.Machine

open Sys2Proof

/-- The check of MORTON_INDEX, which has no buffers (42_morton.md R141). -/
def mortonIndexCheck (s : State) : Option Reason := firstRefusal (mortonCoordsOk s) true false

/-- MORTON_INDEX (42_morton.md R141). -/
def execMortonIndex (s : State) : Out :=
  .next (command (mortonIndexCheck s) (fun s => complete { s with result := mortonWord s.xcoord s.ycoord }) s)

/-- MORTON_SWZ (42_morton.md R142): ESIZE-byte elements from linear to Morton order. -/
def execMortonSwz (s : State) : Out :=
  .next (byteCommand (mortonCheck s) (transfer Config.fillByte s.e (swizzleMoves mortonIndex s.w s.hgt)) s)

/-- MORTON_UNSWZ (42_morton.md R143): from Morton to linear order. -/
def execMortonUnswz (s : State) : Out :=
  .next (byteCommand (mortonCheck s) (transfer Config.fillByte s.e (unswizzleMoves mortonIndex s.w s.hgt)) s)

end Sys2Proof.Machine
end

