-- ==== Sys2Proof/Machine/Ps2.lean ====
section
/-! DEFINITION. The PS2 transforms (43_ps2.md): palette striping, the 8-bit and 32-bit swizzle, the EA-style 4-bit
swizzle, and the SUBA swizzles. -/

namespace Sys2Proof.Machine

open Sys2Proof

/-- The palette reorder (43_ps2.md R150). -/
def restripe (p : List Word) : List Word := transfer Config.fillWord 1 (paletteMoves p.length) p

/-- PAL_STRIPE (43_ps2.md R150). -/
def execPalStripe (s : State) : Out := .next (wordCommand (paletteCheck s) restripe s)

/-- PAL_UNSTRIPE (43_ps2.md R151): the identical reorder. -/
def execPalUnstripe (s : State) : Out := .next (wordCommand (paletteCheck s) restripe s)

/-- PS2_SWZ8 (43_ps2.md R154). -/
def execPs2Swz8 (s : State) : Out :=
  .next (byteCommand (bytePixelCheck s) (transfer Config.fillByte 1 (swizzleMoves s.ps2Idx s.w s.hgt)) s)

/-- PS2_UNSWZ8 (43_ps2.md R155). -/
def execPs2Unswz8 (s : State) : Out :=
  .next (byteCommand (bytePixelCheck s) (transfer Config.fillByte 1 (unswizzleMoves s.ps2Idx s.w s.hgt)) s)

/-- PS2_SWZ32 (43_ps2.md R161). -/
def execPs2Swz32 (s : State) : Out :=
  .next (wordCommand (wordPixelCheck s) (transfer Config.fillWord 1 (swizzleMoves s.ps2Idx s.w s.hgt)) s)

/-- PS2_UNSWZ32 (43_ps2.md R162). -/
def execPs2Unswz32 (s : State) : Out :=
  .next (wordCommand (wordPixelCheck s) (transfer Config.fillWord 1 (unswizzleMoves s.ps2Idx s.w s.hgt)) s)

/-- PS2_SWZ4 (43_ps2.md R159). -/
def execPs2Swz4 (s : State) : Out :=
  .next (byteCommand (nibblePixelCheck s) (transferNibbles (mapMoves (ea4Map s.w s.hgt) (s.w * s.hgt))) s)

/-- PS2_UNSWZ4 (43_ps2.md R160). -/
def execPs2Unswz4 (s : State) : Out :=
  .next (byteCommand (nibblePixelCheck s) (transferNibbles (unmapMoves (ea4Map s.w s.hgt) (s.w * s.hgt))) s)

/-- SUBA_SWZ4 (43_ps2.md R164). -/
def execSubaSwz4 (s : State) : Out :=
  .next (byteCommand (nibblePixelCheck s) (transferNibbles (mapMoves (subaMap .suba4 s.w s.hgt) (s.w * s.hgt))) s)

/-- SUBA_UNSWZ4 (43_ps2.md R165). -/
def execSubaUnswz4 (s : State) : Out :=
  .next (byteCommand (nibblePixelCheck s) (transferNibbles (unmapMoves (subaMap .suba4 s.w s.hgt) (s.w * s.hgt))) s)

/-- SUBA_SWZ8 (43_ps2.md R166). -/
def execSubaSwz8 (s : State) : Out :=
  .next (byteCommand (bytePixelCheck s)
    (transfer Config.fillByte 1 (mapMoves (subaMap .suba8 s.w s.hgt) (s.w * s.hgt))) s)

/-- SUBA_UNSWZ8 (43_ps2.md R167). -/
def execSubaUnswz8 (s : State) : Out :=
  .next (byteCommand (bytePixelCheck s)
    (transfer Config.fillByte 1 (unmapMoves (subaMap .suba8 s.w s.hgt) (s.w * s.hgt))) s)

/-- SUBA_SWZ16 (43_ps2.md R168): pixels of two bytes, each moved as a unit. -/
def execSubaSwz16 (s : State) : Out :=
  .next (byteCommand (pairPixelCheck s)
    (transfer Config.fillByte 2 (mapMoves (subaMap .suba16 s.w s.hgt) (s.w * s.hgt))) s)

/-- SUBA_UNSWZ16 (43_ps2.md R169). -/
def execSubaUnswz16 (s : State) : Out :=
  .next (byteCommand (pairPixelCheck s)
    (transfer Config.fillByte 2 (unmapMoves (subaMap .suba16 s.w s.hgt) (s.w * s.hgt))) s)

end Sys2Proof.Machine
end

