-- ==== Sys2Proof/Machine/Psp.lean ====
section
/-! DEFINITION. The PSP block-tiled transformer (44_psp.md): PSP_SWZ and PSP_UNSWZ, byte by byte. -/

namespace Sys2Proof.Machine

open Sys2Proof

/-- PSP_SWZ (44_psp.md R181). -/
def execPspSwz (s : State) : Out :=
  .next (byteCommand (pspCheck s)
    (transfer Config.fillByte 1 (swizzleMoves (pspIndex (pspRowWidth s)) (pspRowWidth s) s.hgt)) s)

/-- PSP_UNSWZ (44_psp.md R182). -/
def execPspUnswz (s : State) : Out :=
  .next (byteCommand (pspCheck s)
    (transfer Config.fillByte 1 (unswizzleMoves (pspIndex (pspRowWidth s)) (pspRowWidth s) s.hgt)) s)

end Sys2Proof.Machine
end

