-- ==== Sys2Proof/Machine/Dispatch.lean ====
section
/-! DEFINITION. exec: the meaning of every instruction of spec/opcode_table.json. -/

namespace Sys2Proof.Machine

open Sys2Proof

def exec (i : Instr) (s : State) : Host.Outcome State Fault Refusal :=
  match i with
  | .bc6hDec signed => Sys2Proof.Machine.execBc6hDec signed s
  | .bc6hDecF signed => Sys2Proof.Machine.execBc6hDecF signed s
  | .mortonIndex => Sys2Proof.Machine.execMortonIndex s
  | .mortonSwz => Sys2Proof.Machine.execMortonSwz s
  | .mortonUnswz => Sys2Proof.Machine.execMortonUnswz s
  | .palStripe => Sys2Proof.Machine.execPalStripe s
  | .palUnstripe => Sys2Proof.Machine.execPalUnstripe s
  | .ps2Swz8 => Sys2Proof.Machine.execPs2Swz8 s
  | .ps2Unswz8 => Sys2Proof.Machine.execPs2Unswz8 s
  | .ps2Swz32 => Sys2Proof.Machine.execPs2Swz32 s
  | .ps2Unswz32 => Sys2Proof.Machine.execPs2Unswz32 s
  | .ps2Swz4 => Sys2Proof.Machine.execPs2Swz4 s
  | .ps2Unswz4 => Sys2Proof.Machine.execPs2Unswz4 s
  | .subaSwz4 => Sys2Proof.Machine.execSubaSwz4 s
  | .subaUnswz4 => Sys2Proof.Machine.execSubaUnswz4 s
  | .subaSwz8 => Sys2Proof.Machine.execSubaSwz8 s
  | .subaUnswz8 => Sys2Proof.Machine.execSubaUnswz8 s
  | .subaSwz16 => Sys2Proof.Machine.execSubaSwz16 s
  | .subaUnswz16 => Sys2Proof.Machine.execSubaUnswz16 s
  | .pspSwz => Sys2Proof.Machine.execPspSwz s
  | .pspUnswz => Sys2Proof.Machine.execPspUnswz s
  | .readBits n => Sys2Proof.Machine.execReadBits n s
  | .readBitsR n => Sys2Proof.Machine.execReadBitsR n s
  | .bc6hMode0 f => Sys2Proof.Machine.execBc6hMode0 f s
  | .bc6hMode1 f => Sys2Proof.Machine.execBc6hMode1 f s
  | .bc6hMode2 f => Sys2Proof.Machine.execBc6hMode2 f s
  | .bc6hMode3 f => Sys2Proof.Machine.execBc6hMode3 f s
  | .bc6hMode4 f => Sys2Proof.Machine.execBc6hMode4 f s
  | .bc6hMode5 f => Sys2Proof.Machine.execBc6hMode5 f s
  | .bc6hMode6 f => Sys2Proof.Machine.execBc6hMode6 f s
  | .bc6hMode7 f => Sys2Proof.Machine.execBc6hMode7 f s
  | .bc6hMode8 f => Sys2Proof.Machine.execBc6hMode8 f s
  | .bc6hMode9 f => Sys2Proof.Machine.execBc6hMode9 f s
  | .bc6hMode10 f => Sys2Proof.Machine.execBc6hMode10 f s
  | .bc6hMode11 f => Sys2Proof.Machine.execBc6hMode11 f s
  | .bc6hMode12 f => Sys2Proof.Machine.execBc6hMode12 f s
  | .bc6hMode13 f => Sys2Proof.Machine.execBc6hMode13 f s
  | .bc6hModeRsv code => Sys2Proof.Machine.execBc6hModeRsv code s

end Sys2Proof.Machine
end

