-- ==== Sys2Proof/Machine/HostActions.lean ====
section
/-! DEFINITION. The host's side (30_encoding.md R83): what an action other than a command does to the state, the syntax a
program is written in, and how an instruction is placed as the next thing the core runs. -/

namespace Sys2Proof.Machine

open Sys2Proof

/-- `RUN <mnemonic>` and `RUN <mnemonic>.S`: a write of the CMD word (30_encoding.md R83). -/
def hostRun (op : Nat) (signed : Bool) : HostAction := .setReg 0 (encodeCmd op signed)

/-- `DIM w, h` (30_encoding.md R83). -/
def hostDim (w h : Word) : List HostAction := [.setReg 1 w, .setReg 2 h]

/-- `MIDX x, y` (30_encoding.md R83). -/
def hostMidx (x y : Word) : List HostAction := [.setReg 5 x, .setReg 6 y, hostRun 0x10 false]

/-- The next host action and the state without it, none where nothing is pending. -/
def takeAction (s : State) : Option (HostAction × State) :=
  match s.pending with
  | [] => none
  | a :: rest => some (a, { s with pending := rest })

/-- A LOAD, a MOVE, a hand-over or a reset (30_encoding.md R83, 70_reset_and_hazards.md R230); a register write is
`State.writeReg`'s. -/
def bufferAction (a : HostAction) (s : State) : State :=
  match a with
  | .setReg _ _ => s
  | .loadSrc b => { s with mem := s.mem.loadSrc b }
  | .moveDstToSrc => { s with mem := s.mem.moveDstToSrc }
  | .handOver src dst overlap => { s with mem := Memory.handOver src dst overlap }
  | .resetCore => s.resetCore

/-- The bytes of a block, element 0 the lowest 8 bits (00_scope.md R8). -/
def bytesOfBlock (b : Block) : List Byte := (List.range 16).map fun k => b.extractLsb' (8 * k) 8

/-- A CMD word placed as the host's next register write. -/
def placeCmd (w : Word) (s : State) : State := { s with pending := .setReg 0 w :: s.pending }

/-- A block placed as the one BC6H_DEC decodes next: SRC holds its bytes, SRC shares nothing with DST, and the host's
next register write starts BC6H_DEC (log 7). -/
def placeBlock (b : Block) (s : State) : State :=
  placeCmd (encodeCmd 0x01 false) { s with mem := s.mem.loadSrc (.bytes (bytesOfBlock b)) }

/-- The bits of an opcode-table row placed where the next step fetches them: rows of 32 bits are CMD words, other rows
the low bits of a block. -/
def placeTableWord (nbits w : Nat) (s : State) : State :=
  if nbits = 32 then placeCmd (BitVec.ofNat 32 w) s else placeBlock (BitVec.ofNat 128 w) s

end Sys2Proof.Machine
end

