-- ==== Sys2Proof/Machine/Run.lean ====
section
/-! DEFINITION. What one host action does, a write of CMD with the whole command it starts (10_state.md R20, R21,
30_encoding.md R80, R82). -/

namespace Sys2Proof.Machine

open Sys2Proof

/-- A write of CMD (30_encoding.md R80): the command the word encodes runs to its end; an illegal word refuses with
RF_BAD_OP (R82). -/
def runCmd (w : Word) (s : State) : Out :=
  match decodeCmd w with
  | .ok i => exec i s
  | .error _ => .next (refuse .badOp s)

/-- A write of descriptor register `n` (10_state.md R21); a write of CMD also runs the command. -/
def hostWrite (n : Nat) (v : Word) (s : State) : Out :=
  match s.writeReg v n with
  | none => .fault (.noSuchRegister n)
  | some t => if n = 0 then runCmd v t else .next t

/-- One host action. -/
def act (a : HostAction) (s : State) : Out :=
  match a with
  | .setReg n v => hostWrite n v s
  | a => .next (bufferAction a s)

end Sys2Proof.Machine
end

