-- ==== Sys2Proof/Machine/Step.lean ====
section
/-! DEFINITION. One step: the next host action, and with a write of CMD the whole command it starts (10_state.md R20,
30_encoding.md R80, 20_memory.md R64). -/

namespace Sys2Proof.Machine

open Sys2Proof

/-- One step: the next host action; with nothing pending the core is idle and its state stays (60_exceptions.md R213). -/
def step (s : State) : Host.Outcome State Fault Refusal :=
  match takeAction s with
  | none => .next s
  | some (a, t) => act a t

/-- The state with a row of the opcode table placed where the next step fetches it (log 7). -/
def State.withFetchWord (s : State) (nbits w : Nat) : State := placeTableWord nbits w s

end Sys2Proof.Machine
end

