-- ==== Sys2Proof/Machine/Platform.lean ====
section
/-! DEFINITION. A platform of N_INST cores (00_scope.md R7, 60_exceptions.md R211): every instance has its own registers,
buffers and working registers, and they share nothing but the constant tables. DESIGN CHOICE, unsafe: they are also configured
with the same BC6H_TO8, EA4 and SUBA parameters, while each has a PS2_IDX8 of its own (log 30). -/

namespace Sys2Proof.Machine

/-- The cores of a platform, in the order of HOST_MAP (60_exceptions.md R211). -/
structure Platform where
  cores : List State
deriving DecidableEq, Repr

/-- A platform after reset (60_exceptions.md R211). -/
def platformReset : Platform := ⟨List.replicate Config.nInst State.reset⟩

/-- Instance `k` takes one step; none where there is no such instance or its step stops. -/
def Platform.stepAt (k : Nat) (p : Platform) : Option Platform :=
  match p.cores[k]? with
  | none => none
  | some s =>
    match step s with
    | .next t => some ⟨p.cores.set k t⟩
    | .fault _ => none
    | .refused _ => none

end Sys2Proof.Machine
end

