-- ==== Sys2Proof/Safety.lean ====
section
/-! DEFINITION. What a good state and a safe run of the core are, in the terms the statements use. -/

namespace Sys2Proof.Machine

open Sys2Proof

/-- The STATUS words the core can show: reset, DONE, and the four refusals a command can raise; RF_OVERRUN is not among
them (10_state.md R23, 60_exceptions.md R201). -/
def statusLegal (w : Word) : Bool :=
  [0x00000000#32, 0x00000001#32, 0x00000012#32, 0x00000022#32, 0x00000032#32, 0x00000042#32].contains w

/-- The range of an endpoint register (10_state.md R25, 41_bc6h.md R127). -/
def epInRange (v : Int) : Bool := decide (-32768 ≤ v) && decide (v ≤ 65535)

/-- Every endpoint register is in its range. -/
def epRegistersInRange (ep : Rgb (Quad Int)) : Bool :=
  ep.allOk fun _ q => epInRange q.w && epInRange q.x && epInRange q.y && epInRange q.z

/-- The values Finish can give: 0..0x7BFF or 0x8001..0xFC00 (41_bc6h.md R124). -/
def halfInRange (h : Half) : Bool := decide (h.toNat ≤ 0x7BFF) || (decide (0x8001 ≤ h.toNat) && decide (h.toNat ≤ 0xFC00))

/-- MIDX is unset, or what MCODE selects (41_bc6h.md R111). -/
def midxAgrees (k : Work) : Bool :=
  match k.midx with
  | .unset => true
  | .rsv => reservedCodes.contains k.mcode
  | .mode m => modeOfCode k.mcode.toNat == some m

/-- The working registers hold values of their ranges (10_state.md R25). -/
def Work.wf (k : Work) : Bool :=
  decide (k.cur ≤ 128) && midxAgrees k && epRegistersInRange k.ep &&
    k.h.toList.all fun p => halfInRange p.r && halfInRange p.g && halfInRange p.b

/-- The invariant of the core: a legal STATUS, buffers in canonical form, working registers in their ranges. -/
structure Inv (s : State) : Prop where
  status : statusLegal s.status = true
  mem : s.mem.wf = true
  work : s.work.wf = true

/-- The source of the last move that reaches destination `d` from one of the first `n` sources, none where none does:
the later write stays (20_memory.md R58) and a move from outside the source is skipped (R61). -/
def lastWriter (moves : List (Nat × Nat)) (n d : Nat) : Option Nat :=
  ((moves.filter fun m => m.1 == d && decide (m.2 < n)).getLast?).map Prod.snd

/-- The OP numbers of 30_encoding.md R81. -/
def assignedOps : List Nat :=
  [0x01, 0x02, 0x10, 0x11, 0x12, 0x20, 0x21, 0x22, 0x23, 0x24, 0x25, 0x26, 0x27, 0x28, 0x29, 0x2A, 0x2B, 0x2C, 0x2D,
    0x30, 0x31]

/-- A CMD word the spec calls illegal (30_encoding.md R82). -/
def IllegalCmd (w : Word) : Prop :=
  (cmdOp w).toNat ∉ assignedOps ∨ (cmdS w = true ∧ (cmdOp w).toNat ≠ 0x01 ∧ (cmdOp w).toNat ≠ 0x02) ∨ cmdRsv w ≠ 0

/-- WIDTH and HEIGHT are legal (10_state.md R21, 60_exceptions.md R201). -/
def DimsLegal (s : State) : Prop := 1 ≤ s.w ∧ s.w ≤ 65535 ∧ 1 ≤ s.hgt ∧ s.hgt ≤ 65535

/-- SRC holds `bs` as a byte buffer and shares no element with DST. -/
def ByteSource (s : State) (bs : List Byte) : Prop := s.mem.src = .bytes bs ∧ s.mem.aliased = false

/-- SRC holds `ws` as a word buffer and shares no element with DST. -/
def WordSource (s : State) (ws : List Word) : Prop := s.mem.src = .words ws ∧ s.mem.aliased = false

/-- The operand values a command calls legal, RF_PARAM otherwise (60_exceptions.md R201); no claim about rows that are not
commands. -/
def ParamLegal (i : Instr) (s : State) : Prop :=
  match i with
  | .bc6hDec _ | .bc6hDecF _ => s.mem.src.len = 16
  | .mortonIndex => s.xcoord.toNat ≤ 65535 ∧ s.ycoord.toNat ≤ 65535
  | .mortonSwz | .mortonUnswz => s.esize.toNat ≠ 0
  | .palStripe | .palUnstripe => s.mem.src.len ≠ 0 ∧ 32 ∣ s.mem.src.len
  | .pspSwz | .pspUnswz => s.bpp.toNat = 4 ∨ s.bpp.toNat = 8 ∨ s.bpp.toNat = 16 ∨ s.bpp.toNat = 32
  | .ps2Swz8 | .ps2Unswz8 | .ps2Swz32 | .ps2Unswz32 | .ps2Swz4 | .ps2Unswz4 | .subaSwz4 | .subaUnswz4
  | .subaSwz8 | .subaUnswz8 | .subaSwz16 | .subaUnswz16 => True
  | .readBits _ | .readBitsR _ | .bc6hMode0 _ | .bc6hMode1 _ | .bc6hMode2 _ | .bc6hMode3 _ | .bc6hMode4 _
  | .bc6hMode5 _ | .bc6hMode6 _ | .bc6hMode7 _ | .bc6hMode8 _ | .bc6hMode9 _ | .bc6hMode10 _ | .bc6hMode11 _
  | .bc6hMode12 _ | .bc6hMode13 _ | .bc6hModeRsv _ => True

/-- The row of 20_memory.md R51 with WIDTH and HEIGHT in range, RF_SHAPE otherwise (60_exceptions.md R201); the kind of
buffer is part of the row (log 10). -/
def ShapeLegal (i : Instr) (s : State) : Prop :=
  let wh := s.width.toNat * s.height.toNat
  match i with
  | .bc6hDec _ | .bc6hDecF _ => s.mem.src.isBytes = true
  | .mortonIndex => True
  | .mortonSwz | .mortonUnswz =>
    DimsLegal s ∧ s.mem.src.isBytes = true ∧ s.esize.toNat ∣ s.mem.src.len ∧ wh * s.esize.toNat ≤ s.mem.src.len
  | .palStripe | .palUnstripe => s.mem.src.isWords = true
  | .ps2Swz8 | .ps2Unswz8 | .subaSwz8 | .subaUnswz8 => DimsLegal s ∧ s.mem.src.isBytes = true ∧ wh ≤ s.mem.src.len
  | .ps2Swz32 | .ps2Unswz32 => DimsLegal s ∧ s.mem.src.isWords = true ∧ wh ≤ s.mem.src.len
  | .ps2Swz4 | .ps2Unswz4 | .subaSwz4 | .subaUnswz4 =>
    DimsLegal s ∧ s.mem.src.isBytes = true ∧ (wh + 1) / 2 ≤ s.mem.src.len
  | .subaSwz16 | .subaUnswz16 => DimsLegal s ∧ s.mem.src.isBytes = true ∧ 2 ∣ s.mem.src.len ∧ 2 * wh ≤ s.mem.src.len
  | .pspSwz | .pspUnswz =>
    DimsLegal s ∧ s.mem.src.isBytes = true ∧ s.height.toNat * (s.width.toNat * s.bpp.toNat / 8) ≤ s.mem.src.len
  | .readBits _ | .readBitsR _ | .bc6hMode0 _ | .bc6hMode1 _ | .bc6hMode2 _ | .bc6hMode3 _ | .bc6hMode4 _
  | .bc6hMode5 _ | .bc6hMode6 _ | .bc6hMode7 _ | .bc6hMode8 _ | .bc6hMode9 _ | .bc6hMode10 _ | .bc6hMode11 _
  | .bc6hMode12 _ | .bc6hMode13 _ | .bc6hModeRsv _ => True

/-- SRC and DST of a command that has buffers share an element (20_memory.md R62); MORTON_INDEX has none. -/
def SharesElement (i : Instr) (s : State) : Prop :=
  i ≠ .mortonIndex ∧ s.mem.aliased = true ∧ s.mem.src.len ≠ 0

/-- The registers a host program sets, the configuration and the list of host actions are the same in both states. -/
def SameOperands (s t : State) : Prop :=
  t.cmd = s.cmd ∧ t.width = s.width ∧ t.height = s.height ∧ t.esize = s.esize ∧ t.bpp = s.bpp ∧
    t.xcoord = s.xcoord ∧ t.ycoord = s.ycoord ∧ t.ps2Index = s.ps2Index ∧ t.pending = s.pending

/-- Command `j` run on the output of command `i`, moved into SRC (30_encoding.md R83 MOVE), gives back SRC. -/
def RoundTrips (i j : Instr) (s : State) : Prop :=
  ∃ t u, exec i s = .next t ∧ exec j { t with mem := t.mem.moveDstToSrc } = .next u ∧
    t.status = 0x00000001#32 ∧ u.status = 0x00000001#32 ∧ u.mem.dst = s.mem.src

/-- What a swizzle over single elements leaves: destination element `d` holds the element of the last move that reached
it, else FILL (20_memory.md R58, R61, R63). -/
def PlacesElements {α : Type} (fill : α) (moves : List (Nat × Nat)) (src out : List α) : Prop :=
  out.length = src.length ∧
    ∀ d, d < src.length → out[d]? =
      match lastWriter moves src.length d with
      | none => some fill
      | some p => src[p]?

/-- The same over groups of `e` bytes, each moved whole (42_morton.md R142, 43_ps2.md R168). -/
def PlacesGroups (e : Nat) (moves : List (Nat × Nat)) (src out : List Byte) : Prop :=
  out.length = src.length ∧
    ∀ d j, d * e + e ≤ src.length → j < e → out[d * e + j]? =
      match lastWriter moves (src.length / e) d with
      | none => some 0
      | some p => src[p * e + j]?

/-- The same over 4-bit pixels (20_memory.md R56, 43_ps2.md R159). -/
def PlacesNibbles (moves : List (Nat × Nat)) (src out : List Byte) : Prop :=
  out.length = src.length ∧
    ∀ d, d < 2 * src.length → readNibble out d =
      match lastWriter moves (2 * src.length) d with
      | none => 0
      | some p => readNibble src p

/-- `f` is a bijection of the numbers below `n`. -/
def PermutesBelow (n : Nat) (f : Nat → Nat) : Prop :=
  (∀ p, p < n → f p < n) ∧ (∀ p q, p < n → q < n → f p = f q → p = q) ∧ (∀ q, q < n → ∃ p, p < n ∧ f p = q)

/-- Every completed command `i` on `s` ends with DST the bytes `out` for which `P` holds, STATUS DONE and nothing else
changed. -/
def EndsWithBytes (i : Instr) (s : State) (P : List Byte → Prop) : Prop :=
  ∃ out, exec i s = .next { s with status := 0x00000001#32, mem := s.mem.setDst (.bytes out) } ∧ P out

/-- The same for a word output. -/
def EndsWithWords (i : Instr) (s : State) (P : List Word → Prop) : Prop :=
  ∃ out, exec i s = .next { s with status := 0x00000001#32, mem := s.mem.setDst (.words out) } ∧ P out

/-- The states that agree but for the working registers of the BC6H datapath, which no host access shows
(10_state.md R25, R30). -/
def SameButWork (s t : State) : Prop := t = { s with work := t.work }

/-- Exactly one of DONE and REFUSED is 1 (10_state.md R23). -/
def endReported (s : State) : Prop := doneBit s.status = !(refusedBit s.status)

/-- A run of `n` steps that neither faults nor is refused by the model. -/
def SafeRun (n : Nat) (s : State) : Prop := ∃ t, core.run n s = .next t

end Sys2Proof.Machine
end

