-- ==== Sys2Proof/Certificates/Slice0/Obligations.lean ====
section
/-! DEFINITION. The statements for the provers, in the order of the spec's files: the command interface and reset, refusals
and frames, the bit reader and the encodings, the BC6H pipeline, the Morton, PS2 and PSP transforms, and the invariant. -/

open Sys2Proof Sys2Proof.Machine

/-! ## The command interface -/

/-- A write of CMD runs the command the word decodes to, on the state in which CMD holds the word and the write is no
longer pending (30_encoding.md R80, 10_state.md R20). The queue of host actions is the model's (log 7). -/
def Obligations.CmdWriteRunsDecodedCommand : Prop :=
  ∀ (s : State) (w : Word) (i : Instr) (rest : List HostAction),
    s.pending = .setReg 0 w :: rest → decodeCmd w = .ok i →
      step s = exec i { s with cmd := w, pending := rest }

/-- 30_encoding.md R82: an illegal CMD word refuses with RF_BAD_OP and writes nothing but STATUS (CMD is the host's own
write); every other word runs a command, so there are no hint encodings and no custom space. -/
def Obligations.IllegalCmdWordRefusesBadOp : Prop :=
  ∀ (s : State) (w : Word) (rest : List HostAction), s.pending = .setReg 0 w :: rest →
    (IllegalCmd w → step s = .next { s with cmd := w, pending := rest, status := 0x00000012#32 }) ∧
    (¬ IllegalCmd w → ∃ i, decodeCmd w = .ok i ∧ i.format = .cmd ∧ step s = exec i { s with cmd := w, pending := rest })

/-- 10_state.md R21: a host write stores any value in registers 1 to 6 and is ignored by STATUS and RESULT; nothing else
changes. -/
def Obligations.HostRegisterWritesStoreOrAreIgnored : Prop :=
  ∀ (s : State) (v : Word) (rest : List HostAction),
    (s.pending = .setReg 1 v :: rest → step s = .next { s with width := v, pending := rest }) ∧
    (s.pending = .setReg 2 v :: rest → step s = .next { s with height := v, pending := rest }) ∧
    (s.pending = .setReg 3 v :: rest → step s = .next { s with esize := v, pending := rest }) ∧
    (s.pending = .setReg 4 v :: rest → step s = .next { s with bpp := v, pending := rest }) ∧
    (s.pending = .setReg 5 v :: rest → step s = .next { s with xcoord := v, pending := rest }) ∧
    (s.pending = .setReg 6 v :: rest → step s = .next { s with ycoord := v, pending := rest }) ∧
    (s.pending = .setReg 7 v :: rest → step s = .next { s with pending := rest }) ∧
    (s.pending = .setReg 8 v :: rest → step s = .next { s with pending := rest })

/-- The host's other actions (30_encoding.md R83, 60_exceptions.md R213, 70_reset_and_hazards.md R230). That LOAD and MOVE
give a SRC that shares nothing with DST, the hand-over action, and the idle step are the model's choices (logs 15, 28). -/
def Obligations.HostBufferActionsAndIdle : Prop :=
  ∀ (s : State) (b d : Buffer) (o : Bool) (rest : List HostAction),
    (s.pending = [] → step s = .next s) ∧
    (s.pending = .loadSrc b :: rest →
      step s = .next { s with pending := rest, mem := { s.mem with src := b, aliased := false } }) ∧
    (s.pending = .moveDstToSrc :: rest →
      step s = .next { s with pending := rest, mem := { s.mem with src := s.mem.dst, aliased := false } }) ∧
    (s.pending = .handOver b d o :: rest →
      step s = .next { s with pending := rest, mem := { src := b, dst := d, aliased := o && decide (b.len ≠ 0) } }) ∧
    (s.pending = .resetCore :: rest →
      ∃ t, step s = .next t ∧ t.cmd = 0 ∧ t.width = 0 ∧ t.height = 0 ∧ t.esize = 0 ∧ t.bpp = 0 ∧ t.xcoord = 0 ∧
        t.ycoord = 0 ∧ t.status = 0 ∧ t.result = 0 ∧ t.mem = s.mem ∧ t.ps2Index = s.ps2Index ∧ t.pending = rest)

/-- After reset every descriptor register is 0 and neither DONE nor REFUSED is set (10_state.md R31, R23). -/
def Obligations.ResetClearsDescriptorRegisters : Prop :=
  (∀ n, n ≤ 8 → State.reset.readReg n = some 0) ∧ doneBit State.reset.status = false ∧
    refusedBit State.reset.status = false

/-- The model's choice (log 9): a host write of a register number above 8 faults, and it is the only thing that stops a
run. A run whose pending writes name registers 0 to 8 goes on for any number of steps (60_exceptions.md R200 (e), R206). -/
def Obligations.OnlyUnknownRegistersFault : Prop :=
  (∀ (s : State) (n : Nat) (v : Word) (rest : List HostAction), 8 < n → s.pending = .setReg n v :: rest →
    step s = .fault (.noSuchRegister n)) ∧
  (∀ (s : State) (k : Nat), (∀ n v, HostAction.setReg n v ∈ s.pending → n ≤ 8) → SafeRun k s)

/-! ## Refusals and frames -/

/-- 60_exceptions.md R201, R202, 20_memory.md R51, R62: every command makes its checks in order and reports the first that
fails, changing STATUS alone. That a buffer of the wrong kind breaks its row is the model's reading (log 10). -/
def Obligations.CommandsRefuseInCheckOrder : Prop :=
  ∀ (i : Instr) (s : State), i.format = .cmd →
    (¬ ParamLegal i s → exec i s = .next { s with status := 0x00000022#32 }) ∧
    (ParamLegal i s → ¬ ShapeLegal i s → exec i s = .next { s with status := 0x00000032#32 }) ∧
    (ParamLegal i s → ShapeLegal i s → SharesElement i s → exec i s = .next { s with status := 0x00000042#32 })

/-- 10_state.md R23, 60_exceptions.md R202: a command completes with STATUS 1 exactly when every check passes, whatever SRC
holds; the reading of the buffer kind is log 10. -/
def Obligations.CommandsCompleteWhenChecksPass : Prop :=
  ∀ (i : Instr) (s : State), i.format = .cmd →
    ∃ t, exec i s = .next t ∧
      (t.status = 0x00000001#32 ↔ ParamLegal i s ∧ ShapeLegal i s ∧ ¬ SharesElement i s)

/-- 60_exceptions.md R200: after a refusal the state is the state before the command, except STATUS, whose DONE is 0 and
whose REASON is RF_PARAM, RF_SHAPE or RF_ALIAS. -/
def Obligations.RefusalLeavesAllButStatus : Prop :=
  ∀ (i : Instr) (s t : State), i.format = .cmd → exec i s = .next t → refusedBit t.status = true →
    t = { s with status := t.status } ∧ doneBit t.status = false ∧
      (reasonField t.status = 2 ∨ reasonField t.status = 3 ∨ reasonField t.status = 4) ∧
      (∃ r : BitVec 4, t.status = 0x00000002#32 ||| (r.setWidth 32 <<< 4))

/-- 10_state.md R23: after any write of CMD exactly one of DONE and REFUSED is 1, REASON is 0 when DONE is 1, and the bits
of STATUS outside the three fields read 0. -/
def Obligations.EveryCommandReportsDoneOrRefused : Prop :=
  ∀ (s t : State) (w : Word) (rest : List HostAction), s.pending = .setReg 0 w :: rest → step s = .next t →
    endReported t ∧ (doneBit t.status = true → reasonField t.status = 0#4) ∧
      t.status.extractLsb' 2 2 = 0#2 ∧ t.status.extractLsb' 8 24 = 0#24

/-- What no command changes: SRC, the operand registers, the configured PS2_IDX8 (70_reset_and_hazards.md R233, log 14), the
host's own list (10_state.md R21, 60_exceptions.md R200 (c), 70_reset_and_hazards.md R242); and what only its owners change: RESULT, DST, the working registers (10_state.md R25). -/
def Obligations.CommandsLeaveSourceAndOperands : Prop :=
  ∀ (i : Instr) (s t : State), i.format = .cmd → exec i s = .next t →
    SameOperands s t ∧ t.mem.src = s.mem.src ∧ t.mem.aliased = s.mem.aliased ∧
    (i ≠ .mortonIndex → t.result = s.result) ∧ (i = .mortonIndex → t.mem = s.mem) ∧
    ((∀ b, i ≠ .bc6hDec b ∧ i ≠ .bc6hDecF b) → t.work = s.work)

/-- 20_memory.md R59: a command run a second time changes nothing more. -/
def Obligations.CommandsAreIdempotent : Prop :=
  ∀ (i : Instr) (s t : State), i.format = .cmd → exec i s = .next t → exec i t = .next t

/-- 20_memory.md R59: two states with the same operand registers, configuration and SRC give the same STATUS, and on completion
the same DST, or for MORTON_INDEX the same RESULT, whatever DST, RESULT, STATUS and the working registers held. -/
def Obligations.OutputsDependOnOperandsAndSource : Prop :=
  ∀ (i : Instr) (s s' t t' : State), i.format = .cmd → SameOperands s s' → s'.mem.src = s.mem.src →
    s'.mem.aliased = s.mem.aliased → exec i s = .next t → exec i s' = .next t' →
    t'.status = t.status ∧
    (t.status = 0x00000001#32 → (i ≠ .mortonIndex → t'.mem.dst = t.mem.dst) ∧ (i = .mortonIndex → t'.result = t.result))

/-- No step lets the working registers' values from before it show in anything but the working registers
(10_state.md R25, R30; 70_reset_and_hazards.md R231). -/
def Obligations.WorkingRegistersNeverShow : Prop :=
  ∀ (s : State) (k : Work),
    (∀ t, step s = .next t → ∃ u, step { s with work := k } = .next u ∧ SameButWork t u) ∧
    (∀ r, step s = .fault r → step { s with work := k } = .fault r)

/-- Steps of distinct instances of the model's Platform commute (20_memory.md R64, 60_exceptions.md R211). R64 asks for
disjoint buffers; here each instance owns its buffers by the form of Platform, the model's choice (log 20, unsafe), so this
is a statement about Platform.stepAt and about no shared buffer. -/
def Obligations.DistinctInstancesCommute : Prop :=
  ∀ (p q r : Platform) (j k : Nat), j ≠ k → p.stepAt j = some q → q.stepAt k = some r →
    ∃ q', p.stepAt k = some q' ∧ q'.stepAt j = some r

/-! ## The bit reader and the encodings -/

/-- 40_bitstream.md R100: READ_BITS delivers block bit CUR+i as bit i, and CUR advances by n; a width outside 1..16 or a
read past bit 127 refuses with RF_OVERRUN. The register the value is delivered in is the model's (log 6). -/
def Obligations.ReadBitsDeliversBlockBits : Prop :=
  ∀ (n : Nat) (s : State),
    (1 ≤ n → n ≤ 16 → s.work.cur + n ≤ 128 →
      ∃ v : BitVec 16, exec (.readBits n) s = .next { s with work := { s.work with cur := s.work.cur + n, rdata := v } } ∧
        ∀ i, v.getLsbD i = (decide (i < n) && s.work.blk.getLsbD (s.work.cur + i))) ∧
    (n < 1 ∨ 16 < n ∨ 128 < s.work.cur + n → exec (.readBits n) s = .next { s with status := 0x00000052#32 })

/-- 40_bitstream.md R101: READ_BITS_R delivers the same bits in reverse order, the first bit read as bit n-1; its refusals
are those of READ_BITS. The register the value is delivered in is the model's (log 6). -/
def Obligations.ReadBitsRDeliversReversedBits : Prop :=
  ∀ (n : Nat) (s : State),
    (1 ≤ n → n ≤ 16 → s.work.cur + n ≤ 128 →
      ∃ v : BitVec 16, exec (.readBitsR n) s = .next { s with work := { s.work with cur := s.work.cur + n, rdata := v } } ∧
        ∀ i, v.getLsbD i = (decide (i < n) && s.work.blk.getLsbD (s.work.cur + (n - 1 - i)))) ∧
    (n < 1 ∨ 16 < n ∨ 128 < s.work.cur + n → exec (.readBitsR n) s = .next { s with status := 0x00000052#32 })

/-- 40_bitstream.md R102: reads from cursor 0 whose widths (each legal, 1..16) sum to 128 return every bit once; the values
concatenated, the first lowest, give back the block. -/
def Obligations.ReadsSummingTo128AreLossless : Prop :=
  ∀ (b : Block) (ns : List Nat), (∀ n ∈ ns, 1 ≤ n ∧ n ≤ 16) → ns.sum = 128 →
    ∃ vs, readIndices b ns 0 = some (vs, 128) ∧ vs.length = ns.length ∧ packPieces (ns.zip vs) = b.toNat

/-- 30_encoding.md R71: the mode code is block bits 1:0 where they are 0 or 1, else block bits 4:0. -/
def Obligations.ModeCodeIsTwoOrFiveBits : Prop :=
  ∀ b : Block,
    ((b.extractLsb' 0 2).toNat < 2 → readModeCode b = some ((b.extractLsb' 0 2).toNat, 2)) ∧
    (2 ≤ (b.extractLsb' 0 2).toNat →
      readModeCode b = some ((b.extractLsb' 0 2).toNat ||| ((b.extractLsb' 2 3).toNat <<< 2), 5) ∧
      (b.extractLsb' 0 2).toNat ||| ((b.extractLsb' 2 3).toNat <<< 2) = (b.extractLsb' 0 5).toNat)

/-- 30_encoding.md R73: mode code, endpoint fields and partition field fill 82 bits in the two-region modes and 65 in the
one-region modes, and every bit of every endpoint field of the widths of R76 appears exactly once. -/
def Obligations.LayoutsFillTheHeaderExactly : Prop :=
  ∀ m : Fin 14,
    ((modeDesc m).codeLen + ((layout m).map FieldRow.width).sum + (if (modeDesc m).twoRegions then 5 else 0) =
      if (modeDesc m).twoRegions then 82 else 65) ∧
    ∀ (c : Chan) (e : EpIx),
      (((layout m).filter fun r => r.ch == c && r.ep == e).flatMap fun r =>
          (List.range r.width).map fun i => r.lo + i).Perm
        (if (modeDesc m).twoRegions || e == .w || e == .x then List.range ((modeDesc m).width c e) else [])

/-- Every block parses (40_bitstream.md R100: no BC6H layout overruns); a valid mode ends with CUR = 128 (10_state.md R26)
and fields of their widths (41_bc6h.md R113), a reserved code with CUR = 5. -/
def Obligations.EveryBlockParsesToTheEnd : Prop :=
  ∀ b : Block, ∃ p, parseBlock b = some p ∧
    (∀ m, p.mode = some m → p.cur = 128 ∧ p.fields.wf m = true ∧ p.code.toNat = (modeDesc m).code) ∧
    (p.mode = none → p.cur = 5 ∧ reservedCodes.contains p.code = true)

/-- What is decoded is written back bit for bit: for every CMD word, and for every block with a valid mode code
(30_encoding.md R70 to R82). -/
def Obligations.EncodeOfDecodeGivesBackTheBits : Prop :=
  (∀ (w : Word) (i : Instr), decodeCmd w = .ok i → encode i = .cmd w) ∧
  (∀ (b : Block) (i : Instr), decodeBlock b = .ok i → (∀ c, i ≠ .bc6hModeRsv c) → encode i = .block b)

/-- Every well-formed instruction is read back from its encoding, with every operand at every value the encoding admits
(30_encoding.md R70 to R81). -/
def Obligations.DecodeOfEncodeIsTheInstruction : Prop :=
  ∀ i : Instr, i.wf = true → decode (encode i) = .ok i

/-- Words written out from the spec's encodings decode to the instructions they stand for (30_encoding.md R71, R72, R77,
R81). -/
def Obligations.WrittenWordsDecode : Prop :=
  decodeTableWord 32 0x00000101 = some (.bc6hDec true) ∧ decodeTableWord 32 0x00000002 = some (.bc6hDecF false) ∧
  decodeTableWord 32 0x00000010 = some .mortonIndex ∧ decodeTableWord 32 0x00000021 = some .palUnstripe ∧
  decodeTableWord 32 0x0000002C = some .subaSwz16 ∧ decodeTableWord 32 0x00000031 = some .pspUnswz ∧
  decodeTableWord 32 0x00000111 = none ∧ decodeTableWord 32 0x00000201 = none ∧ decodeTableWord 32 0x00000000 = none ∧
  decodeTableWord 8 0x17 = some (.bc6hModeRsv 0x17) ∧
  decodeTableWord 128 0x7FE3 = some (.bc6hMode10 ⟨⟨⟨1023, 0, 0, 0⟩, ⟨0, 0, 0, 0⟩, ⟨0, 0, 0, 0⟩⟩, 0, List.replicate 16 0⟩)

/-! ## The BC6H pipeline -/

/-- 41_bc6h.md R110, R126: BC6H_DEC and BC6H_DEC_F complete on every 16-byte block. Init clears the working registers, the
reads leave CUR at the end of the block (or after a reserved code), the block's mode instruction runs, and DST gets the
packed pixels, with S the `signed` bit of CMD. -/
def Obligations.Bc6hCommandsRunTheDecodedBlock : Prop :=
  ∀ (s : State) (bs : List Byte) (signed : Bool), ByteSource s bs → bs.length = 16 → cmdS s.cmd = signed →
    ∃ i c t, decodeBytes bs = .ok i ∧ i.wf = true ∧
      ((∃ k, i = .bc6hModeRsv k) → c = 5) ∧ ((∀ k, i ≠ .bc6hModeRsv k) → c = 128) ∧
      exec i { s with work := { Work.clear with blk := blockOfBytes bs, cur := c } } = .next t ∧
      exec (.bc6hDec signed) s =
        .next { t with status := 0x00000001#32, mem := s.mem.setDst (.words ((pixelBytes t.work).map packArgb)) } ∧
      exec (.bc6hDecF signed) s =
        .next { t with status := 0x00000001#32,
                       mem := s.mem.setDst (.words ((pixelBytes t.work).map (packArgb ∘ Rgb.map floatRoundTrip))) }

/-- 41_bc6h.md R112 (30_encoding.md R74): a block whose low five bits are 10011, 10111, 11011 or 11111 gives 16 words
0xFF000000 and STATUS DONE, for S = 0 and S = 1 and both commands, whatever its other bits and whatever BC6H_TO8 is, and
nothing after the mode code is read. -/
def Obligations.ReservedBlockDecodesToOpaqueBlack : Prop :=
  ∀ (s : State) (bs : List Byte) (signed : Bool), ByteSource s bs → bs.length = 16 →
    reservedCodes.contains ((bs.getD 0 0).setWidth 5) = true →
    ∀ i ∈ [Instr.bc6hDec signed, Instr.bc6hDecF signed],
      exec i s = .next { s with
        status := 0x00000001#32,
        mem := s.mem.setDst (.words (List.replicate 16 0xFF000000#32)),
        work := { Work.clear with
          blk := blockOfBytes bs, cur := 5, mcode := BitVec.setWidth 5 (bs.getD 0 0), midx := .rsv } }

/-- 41_bc6h.md R126: the float-output sibling does what BC6H_DEC does, on every state and for every BC6H_TO8, because the
round trip through binary32 gives back every channel value. -/
def Obligations.FloatSiblingEqualsBc6hDec : Prop :=
  (∀ c : Byte, floatRoundTrip c = c) ∧
  ∀ (signed : Bool) (s : State), exec (.bc6hDecF signed) s = exec (.bc6hDec signed) s

/-- 20_memory.md R54: every word a BC6H command writes is packed ARGB, alpha 0xFF in bits 31:24, R, G and B in bits 23:16,
15:8 and 7:0; for a valid mode they are BC6H_TO8 of the finished values (41_bc6h.md R125), for a reserved code 0. -/
def Obligations.Bc6hOutputWordsArePackedArgb : Prop :=
  ∀ (s t : State) (signed : Bool), ∀ i ∈ [Instr.bc6hDec signed, Instr.bc6hDecF signed],
    exec i s = .next t → t.status = 0x00000001#32 →
    ∃ ws, t.mem.dst = .words ws ∧ ws.length = 16 ∧ ∀ k : Fin 16,
      (ws.getD k.val 0).extractLsb' 24 8 = 0xFF#8 ∧
      (∀ m, t.work.midx = .mode m →
        (ws.getD k.val 0).extractLsb' 16 8 = Config.bc6hTo8 t.work.h[k].r ∧
        (ws.getD k.val 0).extractLsb' 8 8 = Config.bc6hTo8 t.work.h[k].g ∧
        (ws.getD k.val 0).extractLsb' 0 8 = Config.bc6hTo8 t.work.h[k].b) ∧
      (t.work.midx = .rsv → ws.getD k.val 0 = 0xFF000000#32)

/-- A block of a valid mode completes and sets the working registers MCODE, MIDX, PART, EP and H (41_bc6h.md R111, R113 to
R124): EP is each channel's endpoints after every step, and H[k] the finished interpolation between the ends of pixel k's
subset with the weight of its index. That a mode row changes nothing else, its reads of BLK by CUR and the DST and STATUS of
R110 being the command's, is the model's reading (log 18); so is that it takes S from CMD (log 24). -/
def Obligations.BlockModesFillTheWorkingRegisters : Prop :=
  ∀ (m : Fin 14) (f : BlockFields) (s : State),
    ∃ t, exec (instrOfMode m f) s = .next t ∧ t = { s with work := t.work } ∧
      t.work.cur = s.work.cur ∧ t.work.blk = s.work.blk ∧ t.work.rdata = s.work.rdata ∧
      t.work.mcode = BitVec.ofNat 5 (modeDesc m).code ∧ t.work.midx = .mode m ∧ t.work.part = f.part ∧
      (∀ c : Chan, t.work.ep.get c = channelEndpoints (modeDesc m) c (cmdS s.cmd) (f.ep.get c)) ∧
      ∀ (k : Fin 16) (c : Chan), t.work.h[k].get c =
        let q := t.work.ep.get c
        let wt := if (modeDesc m).twoRegions then weight3.getD (f.idx.getD k.val 0) 0 else weight4.getD (f.idx.getD k.val 0) 0
        if (modeDesc m).twoRegions && partitionOf f.part k.val != 0 then finish (cmdS s.cmd) (interp q.y q.z wt)
        else finish (cmdS s.cmd) (interp q.w q.x wt)

/-- The row of the reserved codes completes: it writes opaque black to all 16 DST words (41_bc6h.md R112) and sets MCODE and
MIDX (R111). That it leaves STATUS, which R110 sets to DONE on this path, and CUR to the command is the model's reading
(log 18). It holds for each of the 32 values of the row's operand, the four reserved codes among them. -/
def Obligations.ReservedModeWritesOpaqueBlack : Prop :=
  ∀ (code : BitVec 5) (s : State), exec (.bc6hModeRsv code) s = .next { s with
    mem := s.mem.setDst (.words (List.replicate 16 0xFF000000#32)),
    work := { s.work with mcode := code, midx := .rsv } }

/-- 41_bc6h.md R115, R116, R117: the three steps between the raw fields and unquantize, per mode, in terms of the integers
modulo the field widths: what sign extension and the modular sum give, and where they do not happen. -/
def Obligations.EndpointReconstructionFollowsTheSteps : Prop :=
  ∀ (m : Fin 14) (c : Chan) (signed : Bool) (q : Quad Int),
    let d := modeDesc m
    let e := mapDeltas d.twoRegions (sext (d.delta c))
    let base := if signed then sext d.wb q.w else q.w
    let sum := fun v : Int => if signed then sext d.wb ((v + base) % 2 ^ d.wb) else (v + base) % 2 ^ d.wb
    reconstruct d c signed q =
      if m = 9 ∨ m = 10 then (if signed then e { q with w := base } else q)
      else mapDeltas d.twoRegions sum (e { q with w := base })

/-- 00_scope.md R9: sign extension from n bits gives the integer of the n-bit two's complement range that agrees with v
modulo 2^n; so do the sums of the transform inverse (41_bc6h.md R117). -/
def Obligations.SignExtensionIsTwosComplement : Prop :=
  ∀ (n : Nat) (v : Int), 1 ≤ n →
    -(2 : Int) ^ (n - 1) ≤ sext n v ∧ sext n v < (2 : Int) ^ (n - 1) ∧ (sext n v - v) % (2 : Int) ^ n = 0

/-- 41_bc6h.md R118: the unsigned unquantize for every width of R76 and every value of that width, its range 0..0xFFFF, and
the width used for every endpoint in use: the base width WB. -/
def Obligations.UnsignedUnquantize : Prop :=
  (∀ (bits : Nat) (v : Int), 6 ≤ bits → bits ≤ 16 → 0 ≤ v → v < (2 : Int) ^ bits →
    (15 ≤ bits → unquantize bits false v = v) ∧
    (bits < 15 → v = 0 → unquantize bits false v = 0) ∧
    (bits < 15 → v = (2 : Int) ^ bits - 1 → unquantize bits false v = 65535) ∧
    (bits < 15 → v ≠ 0 → v ≠ (2 : Int) ^ bits - 1 →
      unquantize bits false v = (v * 65536 + 32768) / (2 : Int) ^ bits) ∧
    0 ≤ unquantize bits false v ∧ unquantize bits false v ≤ 65535) ∧
  (∀ (m : Fin 14) (c : Chan) (raw : Quad Nat),
    let r := reconstruct (modeDesc m) c false (raw.map Int.ofNat)
    let u := unquantize (modeDesc m).wb false
    channelEndpoints (modeDesc m) c false raw =
      if (modeDesc m).twoRegions then ⟨u r.w, u r.x, u r.y, u r.z⟩ else ⟨u r.w, u r.x, r.y, r.z⟩)

/-- 41_bc6h.md R119: the signed unquantize for every width of R76 and every signed value of that width, its range, and the
width used for every endpoint in use: the base width WB. -/
def Obligations.SignedUnquantize : Prop :=
  (∀ (bits : Nat) (v : Int), 6 ≤ bits → bits ≤ 16 → -(2 : Int) ^ (bits - 1) ≤ v → v < (2 : Int) ^ (bits - 1) →
    (16 ≤ bits → unquantize bits true v = v ∧ -32768 ≤ unquantize bits true v ∧ unquantize bits true v ≤ 32767) ∧
    (bits < 16 →
      (∃ m : Int, unquantize bits true v = (if v < 0 then -m else m) ∧
        (|v| = 0 → m = 0) ∧
        (|v| ≠ 0 → (2 : Int) ^ (bits - 1) - 1 ≤ |v| → m = 32767) ∧
        (|v| ≠ 0 → |v| < (2 : Int) ^ (bits - 1) - 1 → m = (|v| * 32768 + 16384) / (2 : Int) ^ (bits - 1))) ∧
      -32767 ≤ unquantize bits true v ∧ unquantize bits true v ≤ 32767)) ∧
  (∀ (m : Fin 14) (c : Chan) (raw : Quad Nat),
    let r := reconstruct (modeDesc m) c true (raw.map Int.ofNat)
    let u := unquantize (modeDesc m).wb true
    channelEndpoints (modeDesc m) c true raw =
      if (modeDesc m).twoRegions then ⟨u r.w, u r.x, u r.y, u r.z⟩ else ⟨u r.w, u r.x, r.y, r.z⟩)

/-- 41_bc6h.md R127: the endpoints of every block stay in their ranges: after the transform inverse 0..mask(WB) or the
signed range of WB bits, after unquantize 0..0xFFFF or -0x8000..0x7FFF, and then H in the range of Finish (R124). -/
def Obligations.PipelineValuesStayInRange : Prop :=
  ∀ (m : Fin 14) (f : BlockFields) (signed : Bool), f.wf m = true →
    (∀ (c : Chan) (e : EpIx), ((modeDesc m).twoRegions = true ∨ e = .w ∨ e = .x) →
      let v := (reconstruct (modeDesc m) c signed ((f.ep.get c).map Int.ofNat)).get e
      let u := (channelEndpoints (modeDesc m) c signed (f.ep.get c)).get e
      if signed then
        -(2 : Int) ^ ((modeDesc m).wb - 1) ≤ v ∧ v < (2 : Int) ^ ((modeDesc m).wb - 1) ∧ -32768 ≤ u ∧ u ≤ 32767 ∧
          (m ≠ 13 → -32767 ≤ u)
      else 0 ≤ v ∧ v < (2 : Int) ^ (modeDesc m).wb ∧ 0 ≤ u ∧ u ≤ 65535) ∧
    ∀ (k : Fin 16) (c : Chan), halfInRange
      ((blockPixels m signed (finalEndpoints (modeDesc m) signed f.ep) f.part f.idx)[k].get c) = true

/-- 41_bc6h.md R123: Interp is the floor of the weighted sum over 64, also for negative sums; the ends are exact and every
result lies between them. -/
def Obligations.InterpolationIsFloorBetweenTheEnds : Prop :=
  ∀ (a b : Int) (wt : Nat), wt ≤ 64 →
    64 * interp a b wt ≤ a * (64 - wt) + b * wt + 32 ∧ a * (64 - wt) + b * wt + 32 < 64 * (interp a b wt + 1) ∧
    interp a b 0 = a ∧ interp a b 64 = b ∧ min a b ≤ interp a b wt ∧ interp a b wt ≤ max a b

/-- 41_bc6h.md R124: Finish on every unquantized value: the unsigned formula and its range 0..0x7BFF; the signed formula, a
sign bit over a magnitude, and its range; -1 finishes to 0x0000; and 0xFC00 comes from -0x8000 alone, which only mode
index 13 can give. -/
def Obligations.FinishScalesToHalfFloatRange : Prop :=
  (∀ v : Int, 0 ≤ v → v ≤ 65535 →
    ((finish false v).toNat : Int) = v * 31 / 64 ∧ (finish false v).toNat ≤ 0x7BFF) ∧
  (∀ v : Int, -32768 ≤ v → v ≤ 32767 →
    (0 ≤ v → ((finish true v).toNat : Int) = v * 31 / 32 ∧ (finish true v).toNat ≤ 0x7BFF) ∧
    (v < 0 → (-v) * 31 / 32 = 0 → finish true v = 0x0000#16) ∧
    (v < 0 → (-v) * 31 / 32 ≠ 0 → ((finish true v).toNat : Int) = 32768 + (-v) * 31 / 32 ∧
      0x8001 ≤ (finish true v).toNat ∧ (finish true v).toNat ≤ 0xFC00) ∧
    ((finish true v).toNat % 0x8000 = 0x7C00 ↔ v = -32768)) ∧
  finish true (-1) = 0x0000#16 ∧ finish true (-32768) = 0xFC00#16 ∧
  ∀ (m : Fin 14) (f : BlockFields) (k : Fin 16) (c : Chan), f.wf m = true → m ≠ 13 →
    ((blockPixels m true (finalEndpoints (modeDesc m) true f.ep) f.part f.idx)[k].get c).toNat % 0x8000 ≠ 0x7C00

/-- 41_bc6h.md R121, R120: each of the 32 shapes assigns 16 pixels to subset 0 or 1, with subset 0 at pixel 0 and subset 1
at its fix-up pixel, so a two-region block has two short indices and 46 index bits, a one-region block 63. -/
def Obligations.PartitionShapesHaveTheirFixups : Prop :=
  (∀ p : BitVec 5, (partitionTable.getD p.toNat []).length = 16 ∧
    (partitionTable.getD p.toNat []).all (fun d => d == 0 || d == 1) = true ∧
    partitionOf p 0 = 0 ∧ fixupOf p < 16 ∧ partitionOf p (fixupOf p) = 1) ∧
  ∀ (m : Fin 14) (p : BitVec 5), (indexWidths m p).sum = if (modeDesc m).twoRegions then 46 else 63

/-! ## Morton -/

/-- 42_morton.md R140: bit 2i of morton_index(x, y) is bit i of x and bit 2i+1 is bit i of y, for 16-bit coordinates;
distinct pairs have distinct indices. -/
def Obligations.MortonIndexInterleavesBits : Prop :=
  (∀ x y i : Nat, x ≤ 65535 → y ≤ 65535 → i < 16 →
    (mortonIndex x y).testBit (2 * i) = x.testBit i ∧ (mortonIndex x y).testBit (2 * i + 1) = y.testBit i) ∧
  (∀ x y : Nat, mortonIndex x y < 2 ^ 32) ∧
  (∀ x y x' y' : Nat, x ≤ 65535 → y ≤ 65535 → x' ≤ 65535 → y' ≤ 65535 → mortonIndex x y = mortonIndex x' y' →
    x = x' ∧ y = y')

/-- 42_morton.md R141: MORTON_INDEX writes RESULT and STATUS and nothing else, for coordinates up to 65535; a larger
coordinate refuses with RF_PARAM. -/
def Obligations.MortonIndexCommandWritesResult : Prop :=
  ∀ s : State,
    (s.xcoord.toNat ≤ 65535 → s.ycoord.toNat ≤ 65535 →
      ∃ r : Word, exec .mortonIndex s = .next { s with result := r, status := 0x00000001#32 } ∧
        ∀ i, i < 16 → r.getLsbD (2 * i) = s.xcoord.getLsbD i ∧ r.getLsbD (2 * i + 1) = s.ycoord.getLsbD i) ∧
    (65535 < s.xcoord.toNat ∨ 65535 < s.ycoord.toNat → exec .mortonIndex s = .next { s with status := 0x00000022#32 })

/-- 42_morton.md R142, R143: with ESIZE at least 1, legal dimensions, a whole number of elements and room for the image,
both Morton commands complete; element m of DST is the element the rule sends there, else 0. -/
def Obligations.MortonSwizzlesPlaceElements : Prop :=
  ∀ (s : State) (bs : List Byte), ByteSource s bs → DimsLegal s → 1 ≤ s.e → bs.length % s.e = 0 →
    s.w * s.hgt * s.e ≤ bs.length →
    EndsWithBytes .mortonSwz s (fun out => out.length = bs.length ∧
      (∀ x y j, x < s.w → y < s.hgt → j < s.e → mortonIndex x y < bs.length / s.e →
        out[mortonIndex x y * s.e + j]? = bs[(y * s.w + x) * s.e + j]?) ∧
      (∀ i, i < bs.length → (∀ x y, x < s.w → y < s.hgt → mortonIndex x y ≠ i / s.e) → out[i]? = some 0)) ∧
    EndsWithBytes .mortonUnswz s (fun out => out.length = bs.length ∧
      (∀ x y j, x < s.w → y < s.hgt → j < s.e →
        out[(y * s.w + x) * s.e + j]? =
          if mortonIndex x y < bs.length / s.e then bs[mortonIndex x y * s.e + j]? else some 0) ∧
      (∀ i, i < bs.length → s.w * s.hgt * s.e ≤ i → out[i]? = some 0))

/-- 42_morton.md R144, first points: unswizzling a swizzled buffer gives back every element whose Morton index is in range,
and 0 elsewhere. -/
def Obligations.MortonRoundTripKeepsReachableElements : Prop :=
  ∀ (s : State) (bs : List Byte), ByteSource s bs → DimsLegal s → 1 ≤ s.e → bs.length % s.e = 0 →
    s.w * s.hgt * s.e ≤ bs.length →
    ∃ t u out, exec .mortonSwz s = .next t ∧ exec .mortonUnswz { t with mem := t.mem.moveDstToSrc } = .next u ∧
      u.mem.dst = .bytes out ∧ out.length = bs.length ∧
      ∀ i, i < bs.length → out[i]? =
        if i / s.e < s.w * s.hgt ∧ mortonIndex (i / s.e % s.w) (i / s.e / s.w) < bs.length / s.e then bs[i]? else some 0

/-- 42_morton.md R144: on squares of a power of two, with no padding, the two Morton commands undo each other both ways. -/
def Obligations.MortonSquaresRoundTrip : Prop :=
  ∀ (s : State) (bs : List Byte) (k : Nat), ByteSource s bs → k ≤ 15 → s.w = 2 ^ k → s.hgt = 2 ^ k → 1 ≤ s.e →
    bs.length = s.w * s.hgt * s.e → RoundTrips .mortonSwz .mortonUnswz s ∧ RoundTrips .mortonUnswz .mortonSwz s

/-! ## PS2 -/

/-- 43_ps2.md R150, R151: on a non-empty palette of whole 32-entry parts both palette commands complete, and DST[i] is
SRC[swap34(i)]. -/
def Obligations.PaletteCommandsSwapBits3And4 : Prop :=
  ∀ (s : State) (ws : List Word), WordSource s ws → ws ≠ [] → ws.length % 32 = 0 →
    ∀ i ∈ [Instr.palStripe, Instr.palUnstripe],
      EndsWithWords i s (fun out => out.length = ws.length ∧
        ∀ k, k < ws.length → out[k]? = ws[swap34 k]? ∧ swap34 k < ws.length ∧
          ∀ b, (swap34 k).testBit b = k.testBit (if b = 3 then 4 else if b = 4 then 3 else b))

/-- 43_ps2.md R152: swap34 is its own inverse; PAL_STRIPE twice, and PAL_UNSTRIPE after PAL_STRIPE, give back SRC. -/
def Obligations.PaletteReorderIsAnInvolution : Prop :=
  (∀ i, swap34 (swap34 i) = i) ∧
  ∀ (s : State) (ws : List Word), WordSource s ws → ws ≠ [] → ws.length % 32 = 0 →
    RoundTrips .palStripe .palStripe s ∧ RoundTrips .palStripe .palUnstripe s

/-- 43_ps2.md R154, R155: the byte overloads complete on every legal size; DST holds what the index function sends, the
later write staying. This is for the default PS2_IDX8 and for every function that may replace it (00_scope.md R7, log 14). -/
def Obligations.Ps2ByteSwizzlesPlacePixels : Prop :=
  ∀ (s : State) (bs : List Byte), ByteSource s bs → DimsLegal s → s.w * s.hgt ≤ bs.length →
    EndsWithBytes .ps2Swz8 s (PlacesElements 0 (swizzleMoves (ps2IdxOf s.ps2Index s.w) s.w s.hgt) bs) ∧
    EndsWithBytes .ps2Unswz8 s (fun out => out.length = bs.length ∧
      (∀ x y, x < s.w → y < s.hgt → out[y * s.w + x]? =
        if ps2IdxOf s.ps2Index s.w x y < bs.length then bs[ps2IdxOf s.ps2Index s.w x y]? else some 0) ∧
      (∀ k, k < bs.length → s.w * s.hgt ≤ k → out[k]? = some 0))

/-- 43_ps2.md R161, R162: the int overloads, over words, for the default PS2_IDX8 and every function that may replace it. -/
def Obligations.Ps2WordSwizzlesPlacePixels : Prop :=
  ∀ (s : State) (ws : List Word), WordSource s ws → DimsLegal s → s.w * s.hgt ≤ ws.length →
    EndsWithWords .ps2Swz32 s (PlacesElements 0 (swizzleMoves (ps2IdxOf s.ps2Index s.w) s.w s.hgt) ws) ∧
    EndsWithWords .ps2Unswz32 s (fun out => out.length = ws.length ∧
      (∀ x y, x < s.w → y < s.hgt → out[y * s.w + x]? =
        if ps2IdxOf s.ps2Index s.w x y < ws.length then ws[ps2IdxOf s.ps2Index s.w x y]? else some 0) ∧
      (∀ k, k < ws.length → s.w * s.hgt ≤ k → out[k]? = some 0))

/-- 43_ps2.md R170: for W a multiple of 16 and H a multiple of 4 the default PS2_IDX8 is a bijection onto [0, W*H). The
spec checked it for W up to 256 and H up to 128; here every size is claimed. -/
def Obligations.Ps2IndexPermutesTilePages : Prop :=
  ∀ w h : Nat, w % 16 = 0 → h % 4 = 0 → PermutesBelow (w * h) (fun p => ps2IdxOf .standard w (p % w) (p / w))

/-- 43_ps2.md R170: on that domain, with the default PS2_IDX8 and no padding, swizzle and unswizzle undo each other both ways,
over bytes and over words; and so they do on every size on which the configured PS2_IDX8 is a bijection. -/
def Obligations.Ps2SwizzlesRoundTrip : Prop :=
  ∀ s : State, DimsLegal s →
    (s.ps2Index = .standard ∧ s.w % 16 = 0 ∧ s.hgt % 4 = 0) ∨
      PermutesBelow (s.w * s.hgt) (fun p => ps2IdxOf s.ps2Index s.w (p % s.w) (p / s.w)) →
    (∀ bs : List Byte, ByteSource s bs → bs.length = s.w * s.hgt →
      RoundTrips .ps2Swz8 .ps2Unswz8 s ∧ RoundTrips .ps2Unswz8 .ps2Swz8 s) ∧
    (∀ ws : List Word, WordSource s ws → ws.length = s.w * s.hgt →
      RoundTrips .ps2Swz32 .ps2Unswz32 s ∧ RoundTrips .ps2Unswz32 .ps2Swz32 s)

/-- 43_ps2.md R159, R160, R164, R165: the four 4-bit commands complete on every legal size; DST holds the pixels the OPEN
map sends, the later write staying, and 0 in every other half byte, for every value of the map. An odd W*H leaves the high
half of SUBA_SWZ4's last byte 0 (R164), which the model builds into SUBA_MAP4 (log 13). -/
def Obligations.NibbleSwizzlesPlacePixels : Prop :=
  ∀ (s : State) (bs : List Byte), ByteSource s bs → DimsLegal s → s.w * s.hgt ≤ 2 * bs.length →
    EndsWithBytes .ps2Swz4 s (PlacesNibbles (mapMoves (ea4Map s.w s.hgt) (s.w * s.hgt)) bs) ∧
    EndsWithBytes .subaSwz4 s (fun out => PlacesNibbles (mapMoves (subaMap .suba4 s.w s.hgt) (s.w * s.hgt)) bs out ∧
      (s.w * s.hgt % 2 = 1 → readNibble out (2 * bs.length - 1) = 0)) ∧
    EndsWithBytes .ps2Unswz4 s (fun out => out.length = bs.length ∧
      ∀ p, p < 2 * bs.length → readNibble out p =
        if p < s.w * s.hgt ∧ ea4Map s.w s.hgt p < 2 * bs.length then readNibble bs (ea4Map s.w s.hgt p) else 0) ∧
    EndsWithBytes .subaUnswz4 s (fun out => out.length = bs.length ∧
      ∀ p, p < 2 * bs.length → readNibble out p =
        if p < s.w * s.hgt ∧ subaMap .suba4 s.w s.hgt p < 2 * bs.length then readNibble bs (subaMap .suba4 s.w s.hgt p)
        else 0)

/-- 43_ps2.md R166, R167: the 8-bit SUBA commands, for every value of the OPEN map. -/
def Obligations.SubaByteSwizzlesPlacePixels : Prop :=
  ∀ (s : State) (bs : List Byte), ByteSource s bs → DimsLegal s → s.w * s.hgt ≤ bs.length →
    EndsWithBytes .subaSwz8 s (PlacesElements 0 (mapMoves (subaMap .suba8 s.w s.hgt) (s.w * s.hgt)) bs) ∧
    EndsWithBytes .subaUnswz8 s (fun out => out.length = bs.length ∧
      ∀ p, p < bs.length → out[p]? =
        if p < s.w * s.hgt ∧ subaMap .suba8 s.w s.hgt p < bs.length then bs[subaMap .suba8 s.w s.hgt p]? else some 0)

/-- 43_ps2.md R168, R169: the 16-bit SUBA commands move each two-byte pixel whole, for every value of the OPEN map. -/
def Obligations.SubaPairSwizzlesPlacePixels : Prop :=
  ∀ (s : State) (bs : List Byte), ByteSource s bs → DimsLegal s → bs.length % 2 = 0 → 2 * (s.w * s.hgt) ≤ bs.length →
    EndsWithBytes .subaSwz16 s (PlacesGroups 2 (mapMoves (subaMap .suba16 s.w s.hgt) (s.w * s.hgt)) bs) ∧
    EndsWithBytes .subaUnswz16 s (fun out => out.length = bs.length ∧
      ∀ p j, 2 * p + 1 < bs.length → j < 2 → out[2 * p + j]? =
        if p < s.w * s.hgt ∧ 2 * subaMap .suba16 s.w s.hgt p + 1 < bs.length
        then bs[2 * subaMap .suba16 s.w s.hgt p + j]? else some 0)

/-- 43_ps2.md R158 (b), (c): on the 128x128 page grid EA4_MAP is a bijection of [0, W*H); and in every page that lies wholly
in the image, whatever its size, pixels of one 32x16 block map into one unit of 512 pixels and distinct blocks to distinct
units, on the grid also across pages. The laws hold of the model's map by its construction (log 12), for every value of the
OPEN constants; that a page cut by the image's edge is bound by nothing is log 12's reading. That a unit begins at a multiple
of 512 pixel slots follows from (b) on the grid, and off the grid it is the model's choice (log 29, unsafe). -/
def Obligations.Ea4MapObeysItsLaws : Prop :=
  ∀ w h : Nat,
    (w % 128 = 0 → h % 128 = 0 →
      PermutesBelow (w * h) (ea4Map w h) ∧
      ∀ x y x' y', x < w → y < h → x' < w → y' < h →
        (ea4Map w h (y * w + x) / 512 = ea4Map w h (y' * w + x') / 512 ↔ x / 32 = x' / 32 ∧ y / 16 = y' / 16)) ∧
    ∀ x y x' y', (x / 128 + 1) * 128 ≤ w → (y / 128 + 1) * 128 ≤ h → x' / 128 = x / 128 → y' / 128 = y / 128 →
      (ea4Map w h (y * w + x) / 512 = ea4Map w h (y' * w + x') / 512 ↔ x / 32 = x' / 32 ∧ y / 16 = y' / 16)

/-- 43_ps2.md R163 (b), (c): on the page grid each SUBA map is a bijection of [0, W*H); and in an image of any size the pixels
of a page that lies wholly in it map into one contiguous run of PW*PH slots. R164: with an odd W*H no pixel goes to the high
half of the byte of the last pixel or of a later byte. The laws hold of the model's maps by their construction, and that a
page cut by the image's edge is bound by nothing and that R164's corner case binds SUBA_MAP4 are the model's readings
(log 13). -/
def Obligations.SubaMapsObeyTheirLaws : Prop :=
  (∀ (k : Config.SubaKind) (a w h : Nat), (a = if k = .suba16 then 64 else 128) →
    (w % a = 0 → h % a = 0 → PermutesBelow (w * h) (subaMap k w h)) ∧
    ∀ X Y, (X + 1) * a ≤ w → (Y + 1) * a ≤ h →
      ∃ start, ∀ x y, x / a = X → y / a = Y →
        start ≤ subaMap k w h (y * w + x) ∧ subaMap k w h (y * w + x) < start + a * a) ∧
  ∀ w h p : Nat, w * h % 2 = 1 → ¬ (subaMap .suba4 w h p % 2 = 1 ∧ w * h ≤ subaMap .suba4 w h p)

/-- 43_ps2.md R160, R165, R167, R169: on the page grid, with no padding, each EA-style and SUBA pair undoes each other both
ways, for every value of the OPEN maps. -/
def Obligations.PagedSwizzlesRoundTrip : Prop :=
  ∀ (s : State) (bs : List Byte), ByteSource s bs → DimsLegal s →
    (s.w % 128 = 0 → s.hgt % 128 = 0 → 2 * bs.length = s.w * s.hgt →
      RoundTrips .ps2Swz4 .ps2Unswz4 s ∧ RoundTrips .ps2Unswz4 .ps2Swz4 s ∧
      RoundTrips .subaSwz4 .subaUnswz4 s ∧ RoundTrips .subaUnswz4 .subaSwz4 s) ∧
    (s.w % 128 = 0 → s.hgt % 128 = 0 → bs.length = s.w * s.hgt →
      RoundTrips .subaSwz8 .subaUnswz8 s ∧ RoundTrips .subaUnswz8 .subaSwz8 s) ∧
    (s.w % 64 = 0 → s.hgt % 64 = 0 → bs.length = 2 * (s.w * s.hgt) →
      RoundTrips .subaSwz16 .subaUnswz16 s ∧ RoundTrips .subaUnswz16 .subaSwz16 s)

/-! ## PSP -/

/-- 44_psp.md R181, R182: for BPP 4, 8, 16 or 32 and legal dimensions both PSP commands complete; DST holds the bytes the
index function sends, the later write staying. -/
def Obligations.PspSwizzlesPlaceBytes : Prop :=
  ∀ (s : State) (bs : List Byte), ByteSource s bs → DimsLegal s → s.bits ∈ [4, 8, 16, 32] →
    s.hgt * (s.w * s.bits / 8) ≤ bs.length →
    let rw := s.w * s.bits / 8
    EndsWithBytes .pspSwz s (PlacesElements 0 (swizzleMoves (pspIndex rw) rw s.hgt) bs) ∧
    EndsWithBytes .pspUnswz s (fun out => out.length = bs.length ∧
      (∀ x y, x < rw → y < s.hgt → out[y * rw + x]? =
        if pspIndex rw x y < bs.length then bs[pspIndex rw x y]? else some 0) ∧
      (∀ k, k < bs.length → rw * s.hgt ≤ k → out[k]? = some 0))

/-- 44_psp.md R183: PSP_IDX is a bijection onto [0, RW*H) where RW is a multiple of 16 and H of 8, where RW is 16, and where
H is 1 and RW at most 16. -/
def Obligations.PspIndexPermutesItsDomains : Prop :=
  ∀ rw h : Nat, (rw % 16 = 0 ∧ h % 8 = 0) ∨ rw = 16 ∨ (h = 1 ∧ rw ≤ 16) →
    PermutesBelow (rw * h) (fun p => pspIndex rw (p % rw) (p / rw))

/-- 44_psp.md R183: on those domains, with no padding, PSP_SWZ and PSP_UNSWZ undo each other both ways. -/
def Obligations.PspSwizzlesRoundTrip : Prop :=
  ∀ (s : State) (bs : List Byte), ByteSource s bs → DimsLegal s → s.bits ∈ [4, 8, 16, 32] →
    ((s.w * s.bits / 8) % 16 = 0 ∧ s.hgt % 8 = 0) ∨ s.w * s.bits / 8 = 16 ∨ (s.hgt = 1 ∧ s.w * s.bits / 8 ≤ 16) →
    bs.length = s.w * s.bits / 8 * s.hgt →
    RoundTrips .pspSwz .pspUnswz s ∧ RoundTrips .pspUnswz .pspSwz s

/-! ## The invariant -/

/-- The state after reset meets the invariant. STATUS is R31's value (10_state.md); the buffers, empty and sharing no element,
are the model's choice (log 3, unsafe), and so are the working registers' values (log 4, unsafe). -/
def Obligations.ResetMeetsTheInvariant : Prop := Inv State.reset

/-- Every step from any state that meets the invariant gives one that meets it: STATUS stays one of reset, DONE and the four
refusals, so RF_OVERRUN is never shown (60_exceptions.md R201); the buffers stay in canonical form; and the working registers
stay in their ranges. A BC6H command leaves them in the ranges of 10_state.md R25 and 41_bc6h.md R124 and R127. That they are
in range after the reset action, where the spec gives them no value, is the model's choice (log 4, unsafe), and that they
keep their values between commands is too (log 5, unsafe). -/
def Obligations.StepKeepsTheInvariant : Prop :=
  ∀ s t : State, Inv s → step s = .next t → Inv t
end

