-- ==== Sys2Proof/Laws/Bits.lean ====
section
/-! SUPPORT. The bit reader (40_bitstream.md): what a read answers, said once. -/

namespace Sys2Proof

/-- A read of a legal width inside the block answers, with the bits at the cursor. -/
theorem readBits_eq_some (b : Block) (cur n : Nat) (h1 : 1 ≤ n) (h2 : n ≤ 16) (h3 : cur + n ≤ 128) :
    readBits b cur n = some ((b.toNat >>> cur) % 2 ^ n) := by
  unfold readBits
  rw [if_neg (by omega), if_neg (by omega)]

/-- A read refuses exactly where its width is illegal or it passes the end of the block. -/
theorem readBits_eq_none (b : Block) (cur n : Nat) : readBits b cur n = none ↔ n < 1 ∨ 16 < n ∨ 128 < cur + n := by
  unfold readBits
  split
  · simp; omega
  · split
    · simp; omega
    · simp; omega

/-- What a read answers fits its width. -/
theorem readBits_lt (b : Block) (cur n v : Nat) (h : readBits b cur n = some v) : v < 2 ^ n := by
  unfold readBits at h
  split at h
  · cases h
  · split at h
    · cases h
    · cases h
      exact Nat.mod_lt _ (Nat.two_pow_pos n)

/-- Bit `i` of a read is block bit `cur + i`. -/
theorem testBit_readBits (b : Block) (cur n v i : Nat) (h : readBits b cur n = some v) (hi : i < n) :
    v.testBit i = b.getLsbD (cur + i) := by
  unfold readBits at h
  split at h
  · cases h
  · split at h
    · cases h
    · cases h
      simp [Nat.testBit_mod_two_pow, Nat.testBit_shiftRight, hi, BitVec.testBit_toNat]

/-- Packed pieces are the concatenation of their values, the first lowest. -/
theorem packPieces_cons (n v : Nat) (ps : List (Nat × Nat)) :
    packPieces ((n, v) :: ps) = v % 2 ^ n + 2 ^ n * packPieces ps := rfl

end Sys2Proof
end

