-- ==== Sys2Proof/Laws/State.lean ====
section
/-! SUPPORT. What every named update of the state leaves in every field: one lemma per field per update, each true by
unfolding that update once, so that no later proof unfolds a record update. -/

namespace Sys2Proof.Machine

open Sys2Proof

/-! ### The refusal (60_exceptions.md R200) -/

@[simp] theorem refuse_cmd (r : Reason) (s : State) : (refuse r s).cmd = s.cmd := rfl
@[simp] theorem refuse_width (r : Reason) (s : State) : (refuse r s).width = s.width := rfl
@[simp] theorem refuse_height (r : Reason) (s : State) : (refuse r s).height = s.height := rfl
@[simp] theorem refuse_esize (r : Reason) (s : State) : (refuse r s).esize = s.esize := rfl
@[simp] theorem refuse_bpp (r : Reason) (s : State) : (refuse r s).bpp = s.bpp := rfl
@[simp] theorem refuse_xcoord (r : Reason) (s : State) : (refuse r s).xcoord = s.xcoord := rfl
@[simp] theorem refuse_ycoord (r : Reason) (s : State) : (refuse r s).ycoord = s.ycoord := rfl
@[simp] theorem refuse_status (r : Reason) (s : State) : (refuse r s).status = statusRefused r := rfl
@[simp] theorem refuse_result (r : Reason) (s : State) : (refuse r s).result = s.result := rfl
@[simp] theorem refuse_mem (r : Reason) (s : State) : (refuse r s).mem = s.mem := rfl
@[simp] theorem refuse_work (r : Reason) (s : State) : (refuse r s).work = s.work := rfl
@[simp] theorem refuse_ps2Index (r : Reason) (s : State) : (refuse r s).ps2Index = s.ps2Index := rfl
@[simp] theorem refuse_pending (r : Reason) (s : State) : (refuse r s).pending = s.pending := rfl

/-! ### The completion (10_state.md R23) -/

@[simp] theorem complete_cmd (s : State) : (complete s).cmd = s.cmd := rfl
@[simp] theorem complete_width (s : State) : (complete s).width = s.width := rfl
@[simp] theorem complete_height (s : State) : (complete s).height = s.height := rfl
@[simp] theorem complete_esize (s : State) : (complete s).esize = s.esize := rfl
@[simp] theorem complete_bpp (s : State) : (complete s).bpp = s.bpp := rfl
@[simp] theorem complete_xcoord (s : State) : (complete s).xcoord = s.xcoord := rfl
@[simp] theorem complete_ycoord (s : State) : (complete s).ycoord = s.ycoord := rfl
@[simp] theorem complete_status (s : State) : (complete s).status = statusDone := rfl
@[simp] theorem complete_result (s : State) : (complete s).result = s.result := rfl
@[simp] theorem complete_mem (s : State) : (complete s).mem = s.mem := rfl
@[simp] theorem complete_work (s : State) : (complete s).work = s.work := rfl
@[simp] theorem complete_ps2Index (s : State) : (complete s).ps2Index = s.ps2Index := rfl
@[simp] theorem complete_pending (s : State) : (complete s).pending = s.pending := rfl

/-! ### DST replaced -/

@[simp] theorem setDst_cmd (b : Buffer) (s : State) : (s.setDst b).cmd = s.cmd := rfl
@[simp] theorem setDst_width (b : Buffer) (s : State) : (s.setDst b).width = s.width := rfl
@[simp] theorem setDst_height (b : Buffer) (s : State) : (s.setDst b).height = s.height := rfl
@[simp] theorem setDst_esize (b : Buffer) (s : State) : (s.setDst b).esize = s.esize := rfl
@[simp] theorem setDst_bpp (b : Buffer) (s : State) : (s.setDst b).bpp = s.bpp := rfl
@[simp] theorem setDst_xcoord (b : Buffer) (s : State) : (s.setDst b).xcoord = s.xcoord := rfl
@[simp] theorem setDst_ycoord (b : Buffer) (s : State) : (s.setDst b).ycoord = s.ycoord := rfl
@[simp] theorem setDst_status (b : Buffer) (s : State) : (s.setDst b).status = s.status := rfl
@[simp] theorem setDst_result (b : Buffer) (s : State) : (s.setDst b).result = s.result := rfl
@[simp] theorem setDst_mem (b : Buffer) (s : State) : (s.setDst b).mem = s.mem.setDst b := rfl
@[simp] theorem setDst_work (b : Buffer) (s : State) : (s.setDst b).work = s.work := rfl
@[simp] theorem setDst_ps2Index (b : Buffer) (s : State) : (s.setDst b).ps2Index = s.ps2Index := rfl
@[simp] theorem setDst_pending (b : Buffer) (s : State) : (s.setDst b).pending = s.pending := rfl

/-! ### Reset (70_reset_and_hazards.md R230) -/

@[simp] theorem resetCore_cmd (s : State) : (s.resetCore).cmd = 0 := rfl
@[simp] theorem resetCore_width (s : State) : (s.resetCore).width = 0 := rfl
@[simp] theorem resetCore_height (s : State) : (s.resetCore).height = 0 := rfl
@[simp] theorem resetCore_esize (s : State) : (s.resetCore).esize = 0 := rfl
@[simp] theorem resetCore_bpp (s : State) : (s.resetCore).bpp = 0 := rfl
@[simp] theorem resetCore_xcoord (s : State) : (s.resetCore).xcoord = 0 := rfl
@[simp] theorem resetCore_ycoord (s : State) : (s.resetCore).ycoord = 0 := rfl
@[simp] theorem resetCore_status (s : State) : (s.resetCore).status = 0 := rfl
@[simp] theorem resetCore_result (s : State) : (s.resetCore).result = 0 := rfl
@[simp] theorem resetCore_mem (s : State) : (s.resetCore).mem = s.mem := rfl
@[simp] theorem resetCore_work (s : State) : (s.resetCore).work = Work.clear := rfl
@[simp] theorem resetCore_ps2Index (s : State) : (s.resetCore).ps2Index = s.ps2Index := rfl
@[simp] theorem resetCore_pending (s : State) : (s.resetCore).pending = s.pending := rfl

/-! ### Init (70_reset_and_hazards.md R231) -/

@[simp] theorem initWork_cmd (b : Block) (s : State) : (initWork b s).cmd = s.cmd := rfl
@[simp] theorem initWork_width (b : Block) (s : State) : (initWork b s).width = s.width := rfl
@[simp] theorem initWork_height (b : Block) (s : State) : (initWork b s).height = s.height := rfl
@[simp] theorem initWork_esize (b : Block) (s : State) : (initWork b s).esize = s.esize := rfl
@[simp] theorem initWork_bpp (b : Block) (s : State) : (initWork b s).bpp = s.bpp := rfl
@[simp] theorem initWork_xcoord (b : Block) (s : State) : (initWork b s).xcoord = s.xcoord := rfl
@[simp] theorem initWork_ycoord (b : Block) (s : State) : (initWork b s).ycoord = s.ycoord := rfl
@[simp] theorem initWork_status (b : Block) (s : State) : (initWork b s).status = s.status := rfl
@[simp] theorem initWork_result (b : Block) (s : State) : (initWork b s).result = s.result := rfl
@[simp] theorem initWork_mem (b : Block) (s : State) : (initWork b s).mem = s.mem := rfl
@[simp] theorem initWork_work (b : Block) (s : State) : (initWork b s).work = { Work.clear with blk := b } := rfl
@[simp] theorem initWork_ps2Index (b : Block) (s : State) : (initWork b s).ps2Index = s.ps2Index := rfl
@[simp] theorem initWork_pending (b : Block) (s : State) : (initWork b s).pending = s.pending := rfl

/-! ### A reserved block (41_bc6h.md R112) -/

@[simp] theorem runReserved_cmd (c : BitVec 5) (s : State) : (runReserved c s).cmd = s.cmd := rfl
@[simp] theorem runReserved_width (c : BitVec 5) (s : State) : (runReserved c s).width = s.width := rfl
@[simp] theorem runReserved_height (c : BitVec 5) (s : State) : (runReserved c s).height = s.height := rfl
@[simp] theorem runReserved_esize (c : BitVec 5) (s : State) : (runReserved c s).esize = s.esize := rfl
@[simp] theorem runReserved_bpp (c : BitVec 5) (s : State) : (runReserved c s).bpp = s.bpp := rfl
@[simp] theorem runReserved_xcoord (c : BitVec 5) (s : State) : (runReserved c s).xcoord = s.xcoord := rfl
@[simp] theorem runReserved_ycoord (c : BitVec 5) (s : State) : (runReserved c s).ycoord = s.ycoord := rfl
@[simp] theorem runReserved_status (c : BitVec 5) (s : State) : (runReserved c s).status = s.status := rfl
@[simp] theorem runReserved_result (c : BitVec 5) (s : State) : (runReserved c s).result = s.result := rfl
@[simp] theorem runReserved_mem (c : BitVec 5) (s : State) : (runReserved c s).mem = s.mem.setDst (.words (List.replicate 16 reservedPixel)) := rfl
@[simp] theorem runReserved_work (c : BitVec 5) (s : State) : (runReserved c s).work = { s.work with mcode := c, midx := .rsv } := rfl
@[simp] theorem runReserved_ps2Index (c : BitVec 5) (s : State) : (runReserved c s).ps2Index = s.ps2Index := rfl
@[simp] theorem runReserved_pending (c : BitVec 5) (s : State) : (runReserved c s).pending = s.pending := rfl

/-! ### A block of a mode (41_bc6h.md R113 to R124) -/

@[simp] theorem runMode_cmd (m : Fin 14) (sg : Bool) (f : BlockFields) (s : State) : (runMode m sg f s).cmd = s.cmd := rfl
@[simp] theorem runMode_width (m : Fin 14) (sg : Bool) (f : BlockFields) (s : State) : (runMode m sg f s).width = s.width := rfl
@[simp] theorem runMode_height (m : Fin 14) (sg : Bool) (f : BlockFields) (s : State) : (runMode m sg f s).height = s.height := rfl
@[simp] theorem runMode_esize (m : Fin 14) (sg : Bool) (f : BlockFields) (s : State) : (runMode m sg f s).esize = s.esize := rfl
@[simp] theorem runMode_bpp (m : Fin 14) (sg : Bool) (f : BlockFields) (s : State) : (runMode m sg f s).bpp = s.bpp := rfl
@[simp] theorem runMode_xcoord (m : Fin 14) (sg : Bool) (f : BlockFields) (s : State) : (runMode m sg f s).xcoord = s.xcoord := rfl
@[simp] theorem runMode_ycoord (m : Fin 14) (sg : Bool) (f : BlockFields) (s : State) : (runMode m sg f s).ycoord = s.ycoord := rfl
@[simp] theorem runMode_status (m : Fin 14) (sg : Bool) (f : BlockFields) (s : State) : (runMode m sg f s).status = s.status := rfl
@[simp] theorem runMode_result (m : Fin 14) (sg : Bool) (f : BlockFields) (s : State) : (runMode m sg f s).result = s.result := rfl
@[simp] theorem runMode_mem (m : Fin 14) (sg : Bool) (f : BlockFields) (s : State) : (runMode m sg f s).mem = s.mem := rfl
@[simp] theorem runMode_ps2Index (m : Fin 14) (sg : Bool) (f : BlockFields) (s : State) : (runMode m sg f s).ps2Index = s.ps2Index := rfl
@[simp] theorem runMode_pending (m : Fin 14) (sg : Bool) (f : BlockFields) (s : State) : (runMode m sg f s).pending = s.pending := rfl
@[simp] theorem runMode_work_cur (m : Fin 14) (sg : Bool) (f : BlockFields) (s : State) :
    (runMode m sg f s).work.cur = s.work.cur := rfl
@[simp] theorem runMode_work_blk (m : Fin 14) (sg : Bool) (f : BlockFields) (s : State) :
    (runMode m sg f s).work.blk = s.work.blk := rfl
@[simp] theorem runMode_work_rdata (m : Fin 14) (sg : Bool) (f : BlockFields) (s : State) :
    (runMode m sg f s).work.rdata = s.work.rdata := rfl
@[simp] theorem runMode_work_mcode (m : Fin 14) (sg : Bool) (f : BlockFields) (s : State) :
    (runMode m sg f s).work.mcode = BitVec.ofNat 5 (modeDesc m).code := rfl
@[simp] theorem runMode_work_midx (m : Fin 14) (sg : Bool) (f : BlockFields) (s : State) :
    (runMode m sg f s).work.midx = .mode m := rfl
@[simp] theorem runMode_work_part (m : Fin 14) (sg : Bool) (f : BlockFields) (s : State) :
    (runMode m sg f s).work.part = f.part := rfl
@[simp] theorem runMode_work_ep (m : Fin 14) (sg : Bool) (f : BlockFields) (s : State) :
    (runMode m sg f s).work.ep = finalEndpoints (modeDesc m) sg f.ep := rfl
@[simp] theorem runMode_work_h (m : Fin 14) (sg : Bool) (f : BlockFields) (s : State) :
    (runMode m sg f s).work.h = blockPixels m sg (finalEndpoints (modeDesc m) sg f.ep) f.part f.idx := rfl

/-! ### The buffers -/

@[simp] theorem setDst_src (m : Memory) (b : Buffer) : (m.setDst b).src = m.src := rfl
@[simp] theorem setDst_dst (m : Memory) (b : Buffer) : (m.setDst b).dst = b := rfl
@[simp] theorem setDst_aliased (m : Memory) (b : Buffer) : (m.setDst b).aliased = m.aliased := rfl
@[simp] theorem loadSrc_src (m : Memory) (b : Buffer) : (m.loadSrc b).src = b := rfl
@[simp] theorem loadSrc_dst (m : Memory) (b : Buffer) : (m.loadSrc b).dst = m.dst := rfl
@[simp] theorem loadSrc_aliased (m : Memory) (b : Buffer) : (m.loadSrc b).aliased = false := rfl
@[simp] theorem moveDstToSrc_src (m : Memory) : m.moveDstToSrc.src = m.dst := rfl
@[simp] theorem moveDstToSrc_dst (m : Memory) : m.moveDstToSrc.dst = m.dst := rfl
@[simp] theorem moveDstToSrc_aliased (m : Memory) : m.moveDstToSrc.aliased = false := rfl
@[simp] theorem handOver_src (a b : Buffer) (o : Bool) : (Memory.handOver a b o).src = a := rfl
@[simp] theorem handOver_dst (a b : Buffer) (o : Bool) : (Memory.handOver a b o).dst = b := rfl
@[simp] theorem handOver_aliased (a b : Buffer) (o : Bool) :
    (Memory.handOver a b o).aliased = (o && decide (a.len ≠ 0)) := rfl

@[simp] theorem len_bytes (es : List Byte) : (Buffer.bytes es).len = es.length := rfl
@[simp] theorem len_words (es : List Word) : (Buffer.words es).len = es.length := rfl
@[simp] theorem isBytes_bytes (es : List Byte) : (Buffer.bytes es).isBytes = true := rfl
@[simp] theorem isBytes_words (es : List Word) : (Buffer.words es).isBytes = false := rfl
@[simp] theorem isWords_bytes (es : List Byte) : (Buffer.bytes es).isWords = false := rfl
@[simp] theorem isWords_words (es : List Word) : (Buffer.words es).isWords = true := rfl
@[simp] theorem asBytes_bytes (es : List Byte) : (Buffer.bytes es).asBytes = es := rfl
@[simp] theorem asWords_words (es : List Word) : (Buffer.words es).asWords = es := rfl

/-! ### Buffers of a kind -/

theorem eq_bytes_of_isBytes {b : Buffer} (h : b.isBytes = true) : b = .bytes b.asBytes := by
  cases b with
  | bytes es => rfl
  | words es => simp at h

theorem eq_words_of_isWords {b : Buffer} (h : b.isWords = true) : b = .words b.asWords := by
  cases b with
  | bytes es => simp at h
  | words es => rfl

/-! ### The canonical form of the buffers is kept by every operation -/

theorem setDst_keeps_wf (m : Memory) (b : Buffer) (h : m.wf = true) : (m.setDst b).wf = true := h

theorem loadSrc_wf (m : Memory) (b : Buffer) : (m.loadSrc b).wf = true := rfl

theorem moveDstToSrc_wf (m : Memory) : m.moveDstToSrc.wf = true := rfl

theorem handOver_wf (a b : Buffer) (o : Bool) : (Memory.handOver a b o).wf = true := by
  by_cases h : a.len = 0 <;> cases o <;> simp [Memory.wf, h]

theorem reset_mem_wf : State.reset.mem.wf = true := rfl

/-- In canonical form, the mark of a shared element is the test of RF_ALIAS (20_memory.md R62). -/
theorem overlap_eq_aliased_of_wf (m : Memory) (h : m.wf = true) : m.overlap = m.aliased := by
  unfold Memory.overlap
  unfold Memory.wf at h
  cases ha : m.aliased <;> simp_all

@[simp] theorem overlap_of_not_aliased (m : Memory) (h : m.aliased = false) : m.overlap = false := by
  simp [Memory.overlap, h]

end Sys2Proof.Machine
end

