-- ==== Sys2Proof/Laws/Ops.lean ====
section
/-! SUPPORT. What each shared operation can do, said once: the element accesses, the swizzle loops, the checks and the
frame of a command. -/

namespace Sys2Proof.Machine

open Sys2Proof

/-! ### Element accesses (20_memory.md R52) -/

theorem length_memRead {α : Type} (buf : List α) (i n : Nat) (h : i + n ≤ buf.length) : (memRead buf i n).length = n := by
  simp only [memRead, List.length_take, List.length_drop]
  omega

theorem getElem?_memRead {α : Type} (buf : List α) (i n j : Nat) (hj : j < n) : (memRead buf i n)[j]? = buf[i + j]? := by
  simp [memRead, hj, List.getElem?_drop]

theorem length_memWrite {α : Type} (buf : List α) (i : Nat) (v : List α) (h : i + v.length ≤ buf.length) :
    (memWrite buf i v).length = buf.length := by
  simp only [memWrite, List.length_append, List.length_take, List.length_drop]
  omega

/-- Reading after a write: the written elements inside, the old ones outside. -/
theorem getElem?_memWrite {α : Type} (buf : List α) (i : Nat) (v : List α) (h : i + v.length ≤ buf.length) (k : Nat) :
    (memWrite buf i v)[k]? = if i ≤ k ∧ k < i + v.length then v[k - i]? else buf[k]? := by
  unfold memWrite
  have hi : (buf.take i).length = i := by simp; omega
  by_cases h1 : k < i
  · rw [List.append_assoc, List.getElem?_append_left (by omega), List.getElem?_take_of_lt h1, if_neg (by omega)]
  · by_cases h2 : k < i + v.length
    · rw [List.append_assoc, List.getElem?_append_right (by omega), hi, List.getElem?_append_left (by omega),
        if_pos (by omega)]
    · rw [List.getElem?_append_right (by simp; omega), List.getElem?_drop, if_neg (by omega)]
      congr 1
      simp only [List.length_append, hi]
      omega

/-! ### The swizzle loop (20_memory.md R58, R61, R63) -/

@[simp] theorem length_copyGroup {α : Type} (e : Nat) (src dst : List α) (m : Nat × Nat) :
    (copyGroup e src dst m).length = dst.length := by
  unfold copyGroup
  split
  · next h => exact length_memWrite _ _ _ (by rw [length_memRead _ _ _ h.2]; exact h.1)
  · rfl

theorem length_foldl_copyGroup {α : Type} (e : Nat) (src : List α) (moves : List (Nat × Nat)) (dst : List α) :
    (moves.foldl (copyGroup e src) dst).length = dst.length := by
  induction moves generalizing dst with
  | nil => rfl
  | cons m ms ih => simp [ih]

@[simp] theorem length_transfer {α : Type} (fill : α) (e : Nat) (moves : List (Nat × Nat)) (src : List α) :
    (transfer fill e moves src).length = src.length := by
  simp [transfer, length_foldl_copyGroup]

theorem lastWriter_append (moves : List (Nat × Nat)) (m : Nat × Nat) (n d : Nat) :
    lastWriter (moves ++ [m]) n d = if m.1 = d ∧ m.2 < n then some m.2 else lastWriter moves n d := by
  unfold lastWriter
  rw [List.filter_append]
  by_cases h : m.1 = d ∧ m.2 < n
  · simp [h]
  · simp only [if_neg h]
    have : ¬ ((m.1 == d && decide (m.2 < n)) = true) := by simpa using h
    simp [this]

/-- One group after the loop: the last move that reached it decides, or nothing did. -/
theorem getElem?_foldl_copyGroup {α : Type} (e : Nat) (he : 1 ≤ e) (src dst : List α) (moves : List (Nat × Nat)) (d j : Nat)
    (hd : d * e + e ≤ dst.length) (hj : j < e) :
    (moves.foldl (copyGroup e src) dst)[d * e + j]? =
      match lastWriter moves (src.length / e) d with
      | none => dst[d * e + j]?
      | some s => src[s * e + j]? := by
  induction moves using List.reverseRecOn with
  | nil => rfl
  | append_singleton ms m ih =>
    rw [List.foldl_append, lastWriter_append]
    have hlen := length_foldl_copyGroup e src ms dst
    generalize hX : ms.foldl (copyGroup e src) dst = X at ih hlen
    simp only [List.foldl_cons, List.foldl_nil]
    have hq : m.2 < src.length / e ↔ m.2 * e + e ≤ src.length := by
      rw [Nat.lt_iff_add_one_le, Nat.le_div_iff_mul_le (by omega), Nat.add_mul, Nat.one_mul]
    unfold copyGroup
    by_cases h : m.1 * e + e ≤ X.length ∧ m.2 * e + e ≤ src.length
    · rw [if_pos h, getElem?_memWrite _ _ _ (by rw [length_memRead _ _ _ h.2]; exact h.1), length_memRead _ _ _ h.2]
      by_cases hm : m.1 = d
      · subst hm
        rw [if_pos (by omega), if_pos ⟨rfl, hq.2 h.2⟩, getElem?_memRead _ _ _ _ (by omega)]
        congr 1
        omega
      · rw [if_neg (by
          rintro ⟨h1, h2⟩
          rcases Nat.lt_or_gt_of_ne hm with h3 | h3
          · have := Nat.mul_le_mul_right e (Nat.succ_le_of_lt h3)
            rw [Nat.succ_mul] at this
            omega
          · have := Nat.mul_le_mul_right e (Nat.succ_le_of_lt h3)
            rw [Nat.succ_mul] at this
            omega), if_neg (by tauto), ih]
    · rw [if_neg h, ih, if_neg]
      rintro ⟨rfl, h2⟩
      exact h ⟨by omega, hq.1 h2⟩

/-- What a swizzle leaves in destination group `d`: the group of the last move that reached it, else FILL. -/
theorem getElem?_transfer {α : Type} (fill : α) (e : Nat) (he : 1 ≤ e) (moves : List (Nat × Nat)) (src : List α) (d j : Nat)
    (hd : d * e + e ≤ src.length) (hj : j < e) :
    (transfer fill e moves src)[d * e + j]? =
      match lastWriter moves (src.length / e) d with
      | none => some fill
      | some s => src[s * e + j]? := by
  rw [transfer, getElem?_foldl_copyGroup e he src _ moves d j (by simpa using hd) hj]
  split
  · rw [List.getElem?_replicate, if_pos (by omega)]
  · rfl

/-- The same for single elements. -/
theorem getElem?_transfer_one {α : Type} (fill : α) (moves : List (Nat × Nat)) (src : List α) (d : Nat)
    (hd : d < src.length) :
    (transfer fill 1 moves src)[d]? =
      match lastWriter moves src.length d with
      | none => some fill
      | some s => src[s]? := by
  simpa using getElem?_transfer fill 1 (Nat.le_refl 1) moves src d 0 (by omega) (by omega)

/-! ### 4-bit pixels (20_memory.md R56) -/

@[simp] theorem length_writeNibble (buf : List Byte) (p : Nat) (v : Byte) : (writeNibble buf p v).length = buf.length := by
  simp [writeNibble]

theorem nibble_read_write (a v : Byte) (i j : Nat) (hi : i < 2) (hj : j < 2) :
    (((a &&& ~~~(0x0F#8 <<< (4 * i))) ||| ((v &&& 0x0F#8) <<< (4 * i))) >>> (4 * j)) &&& 0x0F#8 =
      if j = i then v &&& 0x0F#8 else (a >>> (4 * j)) &&& 0x0F#8 := by
  obtain rfl | rfl : i = 0 ∨ i = 1 := by omega
  all_goals
    obtain rfl | rfl : j = 0 ∨ j = 1 := by omega
    all_goals
      apply BitVec.eq_of_getLsbD_eq
      intro k hk
      have : k = 0 ∨ k = 1 ∨ k = 2 ∨ k = 3 ∨ k = 4 ∨ k = 5 ∨ k = 6 ∨ k = 7 := by omega
      rcases this with rfl | rfl | rfl | rfl | rfl | rfl | rfl | rfl <;> simp

theorem byte_eq_of_nibbles (x y : Byte) (h0 : (x >>> (4 * 0)) &&& 0x0F#8 = (y >>> (4 * 0)) &&& 0x0F#8)
    (h1 : (x >>> (4 * 1)) &&& 0x0F#8 = (y >>> (4 * 1)) &&& 0x0F#8) : x = y := by
  apply BitVec.eq_of_getLsbD_eq
  intro k hk
  have e0 := congrArg (fun b => b.getLsbD k) h0
  have e1 := congrArg (fun b => b.getLsbD (k - 4)) h1
  have : k = 0 ∨ k = 1 ∨ k = 2 ∨ k = 3 ∨ k = 4 ∨ k = 5 ∨ k = 6 ∨ k = 7 := by omega
  rcases this with rfl | rfl | rfl | rfl | rfl | rfl | rfl | rfl
  · simpa using e0
  · simpa using e0
  · simpa using e0
  · simpa using e0
  · simpa using e1
  · simpa using e1
  · simpa using e1
  · simpa using e1

/-- A pixel after a write: the written value at its own index, every other pixel as before. -/
theorem readNibble_writeNibble (buf : List Byte) (p q : Nat) (v : Byte) (hp : p < 2 * buf.length) :
    readNibble (writeNibble buf p v) q = if q = p then v &&& 0x0F#8 else readNibble buf q := by
  unfold readNibble writeNibble
  by_cases h : q / 2 = p / 2
  · rw [h]
    have hget : (buf.set (p / 2) (((buf.getD (p / 2) 0) &&& ~~~(0x0F#8 <<< (4 * (p % 2)))) |||
        ((v &&& 0x0F#8) <<< (4 * (p % 2))))).getD (p / 2) 0 =
        ((buf.getD (p / 2) 0) &&& ~~~(0x0F#8 <<< (4 * (p % 2)))) ||| ((v &&& 0x0F#8) <<< (4 * (p % 2))) := by
      rw [List.getD_eq_getElem?_getD, List.getElem?_set_self (by omega), Option.getD_some]
    rw [hget, nibble_read_write _ _ _ _ (Nat.mod_lt _ (by omega)) (Nat.mod_lt _ (by omega))]
    have : q % 2 = p % 2 ↔ q = p := by omega
    simp only [this]
  · have hne : q ≠ p := fun e => h (by rw [e])
    rw [if_neg hne, List.getD_eq_getElem?_getD, List.getElem?_set_ne (fun e => h e.symm), ← List.getD_eq_getElem?_getD]

theorem readNibble_and (buf : List Byte) (p : Nat) : readNibble buf p &&& 0x0F#8 = readNibble buf p := by
  simp [readNibble, BitVec.and_assoc]

@[simp] theorem length_copyNibble (src dst : List Byte) (m : Nat × Nat) : (copyNibble src dst m).length = dst.length := by
  unfold copyNibble
  split <;> simp

theorem length_foldl_copyNibble (src : List Byte) (moves : List (Nat × Nat)) (dst : List Byte) :
    (moves.foldl (copyNibble src) dst).length = dst.length := by
  induction moves generalizing dst with
  | nil => rfl
  | cons m ms ih => simp [ih]

@[simp] theorem length_transferNibbles (moves : List (Nat × Nat)) (src : List Byte) :
    (transferNibbles moves src).length = src.length := by
  simp [transferNibbles, length_foldl_copyNibble]

theorem readNibble_replicate_zero (n q : Nat) : readNibble (List.replicate n (0 : Byte)) q = 0 := by
  have : (List.replicate n (0 : Byte)).getD (q / 2) 0 = 0 := by
    rw [List.getD_eq_getElem?_getD, List.getElem?_replicate]
    split <;> rfl
  rw [readNibble, this]
  simp

theorem readNibble_foldl_copyNibble (src dst : List Byte) (moves : List (Nat × Nat)) (d : Nat)
    (hd : d < 2 * dst.length) :
    readNibble (moves.foldl (copyNibble src) dst) d =
      match lastWriter moves (2 * src.length) d with
      | none => readNibble dst d
      | some s => readNibble src s := by
  induction moves using List.reverseRecOn with
  | nil => rfl
  | append_singleton ms m ih =>
    rw [List.foldl_append, lastWriter_append]
    have hlen := length_foldl_copyNibble src ms dst
    generalize ms.foldl (copyNibble src) dst = X at ih hlen
    simp only [List.foldl_cons, List.foldl_nil]
    unfold copyNibble
    by_cases h : m.1 < 2 * X.length ∧ m.2 < 2 * src.length
    · rw [if_pos h, readNibble_writeNibble _ _ _ _ h.1, readNibble_and]
      by_cases hm : m.1 = d
      · rw [if_pos hm.symm, if_pos ⟨hm, h.2⟩]
      · rw [if_neg (fun e => hm e.symm), if_neg (by tauto), ih]
    · rw [if_neg h, ih, if_neg]
      rintro ⟨rfl, h2⟩
      exact h ⟨by omega, h2⟩

/-- What a 4-bit swizzle leaves in pixel `d`: the pixel of the last move that reached it, else 0. -/
theorem readNibble_transferNibbles (moves : List (Nat × Nat)) (src : List Byte) (d : Nat) (hd : d < 2 * src.length) :
    readNibble (transferNibbles moves src) d =
      match lastWriter moves (2 * src.length) d with
      | none => 0
      | some s => readNibble src s := by
  rw [transferNibbles, readNibble_foldl_copyNibble src _ moves d (by simpa using hd)]
  split
  · exact readNibble_replicate_zero _ _
  · rfl

/-- Two byte buffers of one length with the same 4-bit pixels are equal. -/
theorem eq_of_readNibble (a b : List Byte) (hl : a.length = b.length)
    (h : ∀ p, p < 2 * a.length → readNibble a p = readNibble b p) : a = b := by
  apply List.ext_getElem hl
  intro i h1 h2
  have e0 := h (2 * i) (by omega)
  have e1 := h (2 * i + 1) (by omega)
  have q0 : 2 * i / 2 = i := by omega
  have q1 : (2 * i + 1) / 2 = i := by omega
  have r0 : 2 * i % 2 = 0 := by omega
  have r1 : (2 * i + 1) % 2 = 1 := by omega
  simp only [readNibble, q0, q1, r0, r1, List.getD_eq_getElem?_getD, List.getElem?_eq_getElem h1,
    List.getElem?_eq_getElem h2, Option.getD_some] at e0 e1
  exact byte_eq_of_nibbles _ _ e0 e1

/-! ### Checks (60_exceptions.md R202) -/

/-- The checks report the first that fails. -/
theorem firstRefusal_cases (p s o : Bool) :
    (p = false ∧ firstRefusal p s o = some .param) ∨
    (p = true ∧ s = false ∧ firstRefusal p s o = some .shape) ∨
    (p = true ∧ s = true ∧ o = true ∧ firstRefusal p s o = some .overlap) ∨
    (p = true ∧ s = true ∧ o = false ∧ firstRefusal p s o = none) := by
  cases p <;> cases s <;> cases o <;> simp [firstRefusal]

theorem firstRefusal_eq_none (p s o : Bool) : firstRefusal p s o = none ↔ p = true ∧ s = true ∧ o = false := by
  cases p <;> cases s <;> cases o <;> simp [firstRefusal]

/-- The checks never report RF_BAD_OP, which is the decoder's, nor RF_OVERRUN. -/
theorem firstRefusal_reason (p s o : Bool) (r : Reason) (h : firstRefusal p s o = some r) :
    r = .param ∨ r = .shape ∨ r = .overlap := by
  cases p <;> cases s <;> cases o <;> simp_all [firstRefusal]

/-- A command refuses with its first failing check or runs its body, and there is no third case. -/
theorem command_cases (c : Option Reason) (body : State → State) (s : State) :
    (∃ r, c = some r ∧ command c body s = refuse r s) ∨ (c = none ∧ command c body s = body s) := by
  cases c with
  | none => exact Or.inr ⟨rfl, rfl⟩
  | some r => exact Or.inl ⟨r, rfl, rfl⟩

@[simp] theorem command_none (body : State → State) (s : State) : command none body s = body s := rfl

@[simp] theorem command_some (r : Reason) (body : State → State) (s : State) :
    command (some r) body s = refuse r s := rfl

/-- A byte command on a byte SRC whose checks pass: DST is the output, STATUS is DONE, all else is as before. -/
theorem byteCommand_done (f : List Byte → List Byte) (s : State) (bs : List Byte) (h : s.mem.src = .bytes bs) :
    byteCommand none f s = { s with status := statusDone, mem := s.mem.setDst (.bytes (f bs)) } := by
  simp [byteCommand, h, complete, State.setDst]

/-- A word command on a word SRC whose checks pass. -/
theorem wordCommand_done (f : List Word → List Word) (s : State) (ws : List Word) (h : s.mem.src = .words ws) :
    wordCommand none f s = { s with status := statusDone, mem := s.mem.setDst (.words (f ws)) } := by
  simp [wordCommand, h, complete, State.setDst]

/-! ### STATUS (10_state.md R23) -/

@[simp] theorem statusDone_eq : statusDone = 0x00000001#32 := rfl

/-- The STATUS words of the refusals (10_state.md R23, 60_exceptions.md R201). -/
theorem statusRefused_eq (r : Reason) :
    statusRefused r = match r with
      | .badOp => 0x12#32
      | .param => 0x22#32
      | .shape => 0x32#32
      | .overlap => 0x42#32
      | .overrun => 0x52#32 := by
  cases r <;> rfl

/-! ### Register accesses (10_state.md R21) -/

/-- A host write changes the one register it names, STATUS and RESULT not at all, and there is none above 8. -/
theorem writeReg_cases (s t : State) (v : Word) (n : Nat) (h : s.writeReg v n = some t) :
    (n = 0 ∧ t = { s with cmd := v }) ∨ (n = 1 ∧ t = { s with width := v }) ∨ (n = 2 ∧ t = { s with height := v }) ∨
    (n = 3 ∧ t = { s with esize := v }) ∨ (n = 4 ∧ t = { s with bpp := v }) ∨ (n = 5 ∧ t = { s with xcoord := v }) ∨
    (n = 6 ∧ t = { s with ycoord := v }) ∨ ((n = 7 ∨ n = 8) ∧ t = s) := by
  unfold State.writeReg at h
  split at h <;> simp_all

theorem writeReg_none (s : State) (v : Word) (n : Nat) : s.writeReg v n = none ↔ 8 < n := by
  unfold State.writeReg
  split <;> simp_all
  omega

/-- What a host action is: a register write, or a change of buffers, or reset. -/
theorem act_bufferAction (a : HostAction) (s : State) (h : ∀ n v, a ≠ .setReg n v) : act a s = .next (bufferAction a s) := by
  cases a with
  | setReg n v => exact absurd rfl (h n v)
  | loadSrc b => rfl
  | moveDstToSrc => rfl
  | handOver a b o => rfl
  | resetCore => rfl

/-- What a step can do: nothing, when no action is pending, or the first action on the state without it. -/
theorem step_cases (s : State) :
    (s.pending = [] ∧ step s = .next s) ∨
    (∃ a rest, s.pending = a :: rest ∧ step s = act a { s with pending := rest }) := by
  unfold step takeAction
  cases h : s.pending with
  | nil => exact Or.inl ⟨rfl, rfl⟩
  | cons a rest => exact Or.inr ⟨a, rest, rfl, rfl⟩

end Sys2Proof.Machine
end

