-- ==== Sys2Proof/Laws/Maps.lean ====
section
/-! SUPPORT. What the page arithmetic of the EA-style and SUBA maps can do (43_ps2.md R158, R163, R164), and what the choice
of PS2_IDX8 leaves open. -/

namespace Sys2Proof.Machine

open Sys2Proof

/-! ### The configured PS2_IDX8 (00_scope.md R7) -/

@[simp] theorem ps2IdxOf_standard : ps2IdxOf .standard = ps2Idx8 := rfl
@[simp] theorem ps2IdxOf_custom (k : Nat) : ps2IdxOf (.custom k) = Config.customPs2Idx8 k := rfl
@[simp] theorem ps2Idx_eq (s : State) : s.ps2Idx = ps2IdxOf s.ps2Index s.w := rfl

/-! ### Pixels and tiles -/

theorem row_major_div {w x : Nat} (y : Nat) (hx : x < w) : (y * w + x) / w = y := by
  rw [Nat.mul_comm, Nat.mul_add_div (by omega), Nat.div_eq_of_lt hx, Nat.add_zero]

theorem row_major_mod {w x : Nat} (y : Nat) (hx : x < w) : (y * w + x) % w = x := by
  rw [Nat.mul_comm, Nat.mul_add_mod, Nat.mod_eq_of_lt hx]

/-- The tile of pixel (x, y). -/
theorem tileOf_row_major (pw ph y : Nat) {w x : Nat} (hx : x < w) :
    tileOf pw ph w (y * w + x) = y / ph * (w / pw) + x / pw := by
  simp only [tileOf, row_major_div y hx, row_major_mod y hx]

/-- The place of pixel (x, y) in its tile. -/
theorem inTile_row_major (pw ph y : Nat) {w x : Nat} (hx : x < w) :
    inTile pw ph w (y * w + x) = y % ph * pw + x % pw := by
  simp only [inTile, row_major_div y hx, row_major_mod y hx]

/-- Pixel (x, y) lies in a page that lies wholly in the image. -/
theorem inWholePage_row_major (a h y : Nat) {w x : Nat} (hx : x < w) :
    inWholePage a w h (y * w + x) = true ↔ (x / a + 1) * a ≤ w ∧ (y / a + 1) * a ≤ h := by
  simp only [inWholePage, row_major_div y hx, row_major_mod y hx, Bool.and_eq_true, decide_eq_true_eq]

/-- A place in a tile is below the tile's size. -/
theorem inTile_lt (pw ph w p : Nat) (hw : 0 < pw) (hh : 0 < ph) : inTile pw ph w p < pw * ph := by
  unfold inTile
  have h1 := Nat.mod_lt (p / w) hh
  have h2 := Nat.mod_lt (p % w) hw
  calc p / w % ph * pw + p % w % pw < p / w % ph * pw + pw := by omega
    _ = (p / w % ph + 1) * pw := by ring
    _ ≤ ph * pw := Nat.mul_le_mul_right _ h1
    _ = pw * ph := Nat.mul_comm _ _

/-! ### Permutations as functions of numbers -/

theorem permAt_lt {n : Nat} (e : Equiv.Perm (Fin n)) {i : Nat} (h : i < n) : permAt e i < n := by
  simp only [permAt, h, dif_pos, Fin.is_lt]

theorem permAt_inj {n : Nat} (e : Equiv.Perm (Fin n)) {i j : Nat} (hi : i < n) (hj : j < n) :
    permAt e i = permAt e j ↔ i = j := by
  simp only [permAt, hi, hj, dif_pos, Fin.val_inj, e.injective.eq_iff, Fin.mk.injEq]

/-! ### The tail of an odd number of 4-bit pixels (43_ps2.md R164) -/

/-- A slot moved off the tail stays in its run. -/
theorem offOddTail_mem_run (n : Nat) {start q k : Nat} (h1 : start ≤ q) (h2 : q < start + k) (hk : 2 ≤ k) :
    start ≤ offOddTail n start q ∧ offOddTail n start q < start + k := by
  unfold offOddTail
  split
  · split <;> omega
  · exact ⟨h1, h2⟩

/-- With an odd number of pixels no slot is the high half of the last pixel's byte or of a later one. -/
theorem offOddTail_not_high_half {n : Nat} (start q : Nat) (hn : n % 2 = 1) :
    ¬ (offOddTail n start q % 2 = 1 ∧ n ≤ offOddTail n start q) := by
  unfold offOddTail
  split
  · split <;> omega
  · next h => exact fun hc => h ⟨hn, hc.1, hc.2⟩

/-- A slot that breaks no law stays where it is, so every map with the laws can be the model's. -/
theorem offOddTail_of_lawful {n q : Nat} (start : Nat) (h : ¬ (n % 2 = 1 ∧ q % 2 = 1 ∧ n ≤ q)) :
    offOddTail n start q = q := if_neg h

end Sys2Proof.Machine
end

