-- ==== Sys2Proof/Laws/PerInstr.lean ====
section
/-! SUPPORT. Facts about every instruction as syntax, one lemma per constructor. -/

namespace Sys2Proof.Laws

open Sys2Proof

/-- The format of an encoding. -/
def encodingFormat : Encoding → Format
  | .cmd _ => .cmd
  | .block _ => .bc6hMode
  | .micro _ _ => .micro

/-- The instruction is written in the format of its row of spec/opcode_table.json, and a command or a micro-operation
is read back from what it is written as. -/
def RowFormat.Statement (i : Instr) : Prop :=
  encodingFormat (encode i) = i.format ∧ (i.format ≠ .bc6hMode → decode (encode i) = .ok i)

theorem RowFormat.bc6hDec (signed : Bool) : RowFormat.Statement (.bc6hDec signed) := by
  cases signed <;> exact ⟨rfl, fun _ => rfl⟩

theorem RowFormat.bc6hDecF (signed : Bool) : RowFormat.Statement (.bc6hDecF signed) := by
  cases signed <;> exact ⟨rfl, fun _ => rfl⟩

theorem RowFormat.mortonIndex : RowFormat.Statement .mortonIndex := ⟨rfl, fun _ => rfl⟩

theorem RowFormat.mortonSwz : RowFormat.Statement .mortonSwz := ⟨rfl, fun _ => rfl⟩

theorem RowFormat.mortonUnswz : RowFormat.Statement .mortonUnswz := ⟨rfl, fun _ => rfl⟩

theorem RowFormat.palStripe : RowFormat.Statement .palStripe := ⟨rfl, fun _ => rfl⟩

theorem RowFormat.palUnstripe : RowFormat.Statement .palUnstripe := ⟨rfl, fun _ => rfl⟩

theorem RowFormat.ps2Swz8 : RowFormat.Statement .ps2Swz8 := ⟨rfl, fun _ => rfl⟩

theorem RowFormat.ps2Unswz8 : RowFormat.Statement .ps2Unswz8 := ⟨rfl, fun _ => rfl⟩

theorem RowFormat.ps2Swz32 : RowFormat.Statement .ps2Swz32 := ⟨rfl, fun _ => rfl⟩

theorem RowFormat.ps2Unswz32 : RowFormat.Statement .ps2Unswz32 := ⟨rfl, fun _ => rfl⟩

theorem RowFormat.ps2Swz4 : RowFormat.Statement .ps2Swz4 := ⟨rfl, fun _ => rfl⟩

theorem RowFormat.ps2Unswz4 : RowFormat.Statement .ps2Unswz4 := ⟨rfl, fun _ => rfl⟩

theorem RowFormat.subaSwz4 : RowFormat.Statement .subaSwz4 := ⟨rfl, fun _ => rfl⟩

theorem RowFormat.subaUnswz4 : RowFormat.Statement .subaUnswz4 := ⟨rfl, fun _ => rfl⟩

theorem RowFormat.subaSwz8 : RowFormat.Statement .subaSwz8 := ⟨rfl, fun _ => rfl⟩

theorem RowFormat.subaUnswz8 : RowFormat.Statement .subaUnswz8 := ⟨rfl, fun _ => rfl⟩

theorem RowFormat.subaSwz16 : RowFormat.Statement .subaSwz16 := ⟨rfl, fun _ => rfl⟩

theorem RowFormat.subaUnswz16 : RowFormat.Statement .subaUnswz16 := ⟨rfl, fun _ => rfl⟩

theorem RowFormat.pspSwz : RowFormat.Statement .pspSwz := ⟨rfl, fun _ => rfl⟩

theorem RowFormat.pspUnswz : RowFormat.Statement .pspUnswz := ⟨rfl, fun _ => rfl⟩

theorem RowFormat.readBits (n : Nat) : RowFormat.Statement (.readBits n) := ⟨rfl, fun _ => rfl⟩

theorem RowFormat.readBitsR (n : Nat) : RowFormat.Statement (.readBitsR n) := ⟨rfl, fun _ => rfl⟩

theorem RowFormat.bc6hMode0 (f : BlockFields) : RowFormat.Statement (.bc6hMode0 f) :=
  ⟨rfl, fun h => absurd rfl h⟩

theorem RowFormat.bc6hMode1 (f : BlockFields) : RowFormat.Statement (.bc6hMode1 f) :=
  ⟨rfl, fun h => absurd rfl h⟩

theorem RowFormat.bc6hMode2 (f : BlockFields) : RowFormat.Statement (.bc6hMode2 f) :=
  ⟨rfl, fun h => absurd rfl h⟩

theorem RowFormat.bc6hMode3 (f : BlockFields) : RowFormat.Statement (.bc6hMode3 f) :=
  ⟨rfl, fun h => absurd rfl h⟩

theorem RowFormat.bc6hMode4 (f : BlockFields) : RowFormat.Statement (.bc6hMode4 f) :=
  ⟨rfl, fun h => absurd rfl h⟩

theorem RowFormat.bc6hMode5 (f : BlockFields) : RowFormat.Statement (.bc6hMode5 f) :=
  ⟨rfl, fun h => absurd rfl h⟩

theorem RowFormat.bc6hMode6 (f : BlockFields) : RowFormat.Statement (.bc6hMode6 f) :=
  ⟨rfl, fun h => absurd rfl h⟩

theorem RowFormat.bc6hMode7 (f : BlockFields) : RowFormat.Statement (.bc6hMode7 f) :=
  ⟨rfl, fun h => absurd rfl h⟩

theorem RowFormat.bc6hMode8 (f : BlockFields) : RowFormat.Statement (.bc6hMode8 f) :=
  ⟨rfl, fun h => absurd rfl h⟩

theorem RowFormat.bc6hMode9 (f : BlockFields) : RowFormat.Statement (.bc6hMode9 f) :=
  ⟨rfl, fun h => absurd rfl h⟩

theorem RowFormat.bc6hMode10 (f : BlockFields) : RowFormat.Statement (.bc6hMode10 f) :=
  ⟨rfl, fun h => absurd rfl h⟩

theorem RowFormat.bc6hMode11 (f : BlockFields) : RowFormat.Statement (.bc6hMode11 f) :=
  ⟨rfl, fun h => absurd rfl h⟩

theorem RowFormat.bc6hMode12 (f : BlockFields) : RowFormat.Statement (.bc6hMode12 f) :=
  ⟨rfl, fun h => absurd rfl h⟩

theorem RowFormat.bc6hMode13 (f : BlockFields) : RowFormat.Statement (.bc6hMode13 f) :=
  ⟨rfl, fun h => absurd rfl h⟩

theorem RowFormat.bc6hModeRsv (code : BitVec 5) : RowFormat.Statement (.bc6hModeRsv code) :=
  ⟨rfl, fun h => absurd rfl h⟩

end Sys2Proof.Laws
end

