-- ==== Sys2Proof/Tests/Slice0.lean ====
section
/-! SUPPORT. Our own tests. Expected values are the worked vectors of spec/95_test_vectors.md (named in the comments) or
words written out from the spec's encodings. Then a witness for the hypotheses of every statement that has any. -/

set_option Elab.async false

namespace Sys2Proof.Tests

open Sys2Proof Sys2Proof.Machine

/-- Bytes from numbers. -/
def bytesOf (l : List Nat) : List Byte := l.map (BitVec.ofNat 8)

/-- Words from numbers. -/
def wordsOf (l : List Nat) : List Word := l.map (BitVec.ofNat 32)

/-- A core after reset with a SRC and a DST of one marked byte. -/
def holding (src : Buffer) : State := { State.reset with mem := ⟨src, .bytes [0xEE#8], false⟩ }

/-- The same with WIDTH, HEIGHT, ESIZE and BPP. -/
def image (w h e bpp : Word) (src : Buffer) : State :=
  { holding src with width := w, height := h, esize := e, bpp := bpp }

/-- A core after reset with host actions to come. -/
def queued (acts : List HostAction) : State := { State.reset with pending := acts }

/-- A core whose CMD holds BC6H_DEC with the given S. -/
def decoding (signed : Bool) (src : Buffer) : State := { holding src with cmd := encodeCmd 0x01 signed }

/-- A core whose BLK and CUR are as given. -/
def reading (blk : List Nat) (cur : Nat) : State :=
  { State.reset with work := { Work.clear with blk := blockOfBytes (bytesOf blk), cur := cur } }

/-- What `f` sees of the next state. -/
def after {α : Type} (o : Out) (f : State → α) : Option α :=
  match o with
  | .next t => some (f t)
  | .fault _ => none
  | .refused _ => none

/-- STATUS and DST as numbers. -/
def result (t : State) : Nat × List Nat :=
  (t.status.toNat, t.mem.dst.asBytes.map (·.toNat) ++ t.mem.dst.asWords.map (·.toNat))

/-- H as numbers. -/
def pixels (t : State) : List (List Nat) := t.work.h.toList.map fun p => [p.r.toNat, p.g.toNat, p.b.toNat]

/-- EP as lists. -/
def endpoints (t : State) : List (List Int) :=
  [t.work.ep.r, t.work.ep.g, t.work.ep.b].map fun q => [q.w, q.x, q.y, q.z]

/-! ## Well-formedness: an ill-formed term for each check -/

/-- The fields of an all-zero block. -/
def zeroFields : BlockFields := ⟨Rgb.all (Quad.all 0), 0, List.replicate 16 0⟩

theorem test_wf_accepts_zero_fields : (Instr.bc6hMode0 zeroFields).wf = true := by decide +kernel
theorem test_wf_refuses_wide_base :
    BlockFields.epOk 0 { zeroFields with ep := ⟨⟨1024, 0, 0, 0⟩, Quad.all 0, Quad.all 0⟩ } = false := by decide +kernel
theorem test_wf_refuses_wide_delta :
    BlockFields.epOk 2 { zeroFields with ep := ⟨Quad.all 0, ⟨0, 16, 0, 0⟩, Quad.all 0⟩ } = false := by decide +kernel
theorem test_wf_refuses_unstored_endpoint :
    BlockFields.epOk 10 { zeroFields with ep := ⟨Quad.all 0, Quad.all 0, ⟨0, 0, 1, 0⟩⟩ } = false := by decide +kernel
theorem test_wf_refuses_partition_of_one_region : BlockFields.partOk 11 { zeroFields with part := 1 } = false := by
  decide +kernel
theorem test_wf_refuses_fifteen_indices : BlockFields.idxCountOk { zeroFields with idx := List.replicate 15 0 } = false := by
  decide +kernel
theorem test_wf_refuses_wide_index_at_fixup :
    BlockFields.idxOk 0 { zeroFields with part := 17, idx := [0, 0, 4, 0, 0, 0, 0, 0, 0, 0, 0, 0, 0, 0, 0, 0] } = false := by
  decide +kernel
theorem test_wf_refuses_read_widths : [0, 17].all (fun n => !(Instr.readBits n).wf && !(Instr.readBitsR n).wf) = true := by
  decide +kernel
theorem test_wf_refuses_valid_code_as_reserved : (Instr.bc6hModeRsv 0x0F).wf = false := by decide +kernel

/-! ## Decoding: words written out from 30_encoding.md R80, R81 and blocks of 95_test_vectors.md -/


theorem test_decode_bc6hDec : (decodeCmd 0x00000101#32).toOption = some (.bc6hDec true) := by decide +kernel
theorem test_decode_bc6hDecF : (decodeCmd 0x00000002#32).toOption = some (.bc6hDecF false) := by decide +kernel
theorem test_decode_mortonIndex : (decodeCmd 0x00000010#32).toOption = some (.mortonIndex) := by decide +kernel
theorem test_decode_mortonSwz : (decodeCmd 0x00000011#32).toOption = some (.mortonSwz) := by decide +kernel
theorem test_decode_mortonUnswz : (decodeCmd 0x00000012#32).toOption = some (.mortonUnswz) := by decide +kernel
theorem test_decode_palStripe : (decodeCmd 0x00000020#32).toOption = some (.palStripe) := by decide +kernel
theorem test_decode_palUnstripe : (decodeCmd 0x00000021#32).toOption = some (.palUnstripe) := by decide +kernel
theorem test_decode_ps2Swz8 : (decodeCmd 0x00000022#32).toOption = some (.ps2Swz8) := by decide +kernel
theorem test_decode_ps2Unswz8 : (decodeCmd 0x00000023#32).toOption = some (.ps2Unswz8) := by decide +kernel
theorem test_decode_ps2Swz32 : (decodeCmd 0x00000024#32).toOption = some (.ps2Swz32) := by decide +kernel
theorem test_decode_ps2Unswz32 : (decodeCmd 0x00000025#32).toOption = some (.ps2Unswz32) := by decide +kernel
theorem test_decode_ps2Swz4 : (decodeCmd 0x00000026#32).toOption = some (.ps2Swz4) := by decide +kernel
theorem test_decode_ps2Unswz4 : (decodeCmd 0x00000027#32).toOption = some (.ps2Unswz4) := by decide +kernel
theorem test_decode_subaSwz4 : (decodeCmd 0x00000028#32).toOption = some (.subaSwz4) := by decide +kernel
theorem test_decode_subaUnswz4 : (decodeCmd 0x00000029#32).toOption = some (.subaUnswz4) := by decide +kernel
theorem test_decode_subaSwz8 : (decodeCmd 0x0000002A#32).toOption = some (.subaSwz8) := by decide +kernel
theorem test_decode_subaUnswz8 : (decodeCmd 0x0000002B#32).toOption = some (.subaUnswz8) := by decide +kernel
theorem test_decode_subaSwz16 : (decodeCmd 0x0000002C#32).toOption = some (.subaSwz16) := by decide +kernel
theorem test_decode_subaUnswz16 : (decodeCmd 0x0000002D#32).toOption = some (.subaUnswz16) := by decide +kernel
theorem test_decode_pspSwz : (decodeCmd 0x00000030#32).toOption = some (.pspSwz) := by decide +kernel
theorem test_decode_pspUnswz : (decodeCmd 0x00000031#32).toOption = some (.pspUnswz) := by decide +kernel

/-- READ_BITS and READ_BITS_R have no word of their own: rows of 30_encoding.md R77 say which one reads a field. -/
theorem test_decode_readBits : (layout 0).head?.map FieldRow.micro = some (.readBits 1) := by decide +kernel
theorem test_decode_readBitsR : (layout 13).filter (·.reversed) |>.map FieldRow.micro |>.contains (.readBitsR 6) := by
  decide +kernel
theorem test_decode_refuses_illegal_words :
    [0x00000000#32, 0x00000003#32, 0x00000111#32, 0x00000201#32, 0xFFFFFF01#32, 0x00000032#32].all
      (fun w => (decodeCmd w).toOption == none) = true := by decide +kernel

/-- V-BC-M0. -/
def fields0 : BlockFields :=
  ⟨⟨⟨341, 1, 2, 3⟩, ⟨819, 31, 30, 1⟩, ⟨783, 16, 0, 15⟩⟩, 3, [1, 6, 3, 0, 5, 2, 7, 4, 1, 6, 3, 0, 5, 2, 7, 0]⟩
theorem test_decode_bc6hMode0 :
    (decodeBytes (bytesOf [0xA4, 0xAA, 0x99, 0x1F, 0x0E, 0xFC, 0x0F, 0x18, 0xC4, 0x71, 0xE4, 0xA1, 0x3A, 0xE3, 0xA1, 0x3A])).toOption =
      some (.bc6hMode0 fields0) := by decide +kernel

/-- V-BC-M1. -/
def fields1 : BlockFields :=
  ⟨⟨⟨85, 1, 2, 3⟩, ⟨51, 63, 62, 1⟩, ⟨15, 32, 0, 31⟩⟩, 10, [1, 6, 3, 0, 5, 2, 7, 4, 1, 6, 3, 0, 5, 2, 7, 0]⟩
theorem test_decode_bc6hMode1 :
    (decodeBytes (bytesOf [0xA5, 0xBA, 0x99, 0x1F, 0x0D, 0xFC, 0x0F, 0x10, 0x84, 0x41, 0xE5, 0xA1, 0x3A, 0xE3, 0xA1, 0x3A])).toOption =
      some (.bc6hMode1 fields1) := by decide +kernel

/-- V-BC-M2. -/
def fields2 : BlockFields :=
  ⟨⟨⟨1365, 1, 2, 3⟩, ⟨819, 15, 14, 1⟩, ⟨1807, 8, 0, 7⟩⟩, 17, [1, 6, 3, 0, 5, 2, 7, 4, 1, 6, 3, 0, 5, 2, 7, 4]⟩
theorem test_decode_bc6hMode2 :
    (decodeBytes (bytesOf [0xA2, 0xAA, 0x99, 0x1F, 0x0E, 0xFD, 0x0D, 0x1C, 0xC4, 0x21, 0xE6, 0x51, 0x9D, 0xF1, 0x50, 0x9D])).toOption =
      some (.bc6hMode2 fields2) := by decide +kernel

/-- V-BC-M3. -/
def fields3 : BlockFields :=
  ⟨⟨⟨1365, 1, 2, 3⟩, ⟨819, 31, 30, 1⟩, ⟨1807, 8, 0, 7⟩⟩, 24, [1, 6, 3, 0, 5, 2, 7, 4, 1, 6, 3, 0, 5, 2, 7, 4]⟩
theorem test_decode_bc6hMode3 :
    (decodeBytes (bytesOf [0xA6, 0xAA, 0x99, 0x1F, 0x8E, 0xFC, 0x0B, 0x1C, 0xE4, 0x09, 0xE7, 0x51, 0x9D, 0xF1, 0x50, 0x9D])).toOption =
      some (.bc6hMode3 fields3) := by decide +kernel

/-- V-BC-M4. -/
def fields4 : BlockFields :=
  ⟨⟨⟨1365, 1, 2, 3⟩, ⟨819, 15, 14, 1⟩, ⟨1807, 16, 0, 15⟩⟩, 31, [1, 6, 3, 0, 5, 2, 7, 4, 1, 6, 3, 0, 5, 2, 7, 4]⟩
theorem test_decode_bc6hMode4 :
    (decodeBytes (bytesOf [0xAA, 0xAA, 0x99, 0x1F, 0x8E, 0xFC, 0x0D, 0x18, 0xE4, 0xF1, 0xE7, 0x51, 0x9D, 0xF1, 0x50, 0x9D])).toOption =
      some (.bc6hMode4 fields4) := by decide +kernel

/-- V-BC-M5. -/
def fields5 : BlockFields :=
  ⟨⟨⟨341, 1, 2, 3⟩, ⟨307, 31, 30, 1⟩, ⟨271, 16, 0, 15⟩⟩, 6, [1, 6, 3, 0, 5, 2, 7, 4, 1, 6, 3, 0, 5, 2, 7, 0]⟩
theorem test_decode_bc6hMode5 :
    (decodeBytes (bytesOf [0xAE, 0xAA, 0x99, 0x1F, 0x0A, 0xFC, 0x0F, 0x18, 0xC4, 0xD1, 0xE4, 0xA1, 0x3A, 0xE3, 0xA1, 0x3A])).toOption =
      some (.bc6hMode5 fields5) := by decide +kernel

/-- V-BC-M6. -/
def fields6 : BlockFields :=
  ⟨⟨⟨85, 1, 2, 3⟩, ⟨51, 31, 30, 1⟩, ⟨15, 16, 0, 15⟩⟩, 13, [1, 6, 3, 0, 5, 2, 7, 4, 1, 6, 3, 0, 5, 2, 7, 0]⟩
theorem test_decode_bc6hMode6 :
    (decodeBytes (bytesOf [0xB2, 0x8A, 0x99, 0x1F, 0x0A, 0xFC, 0x0F, 0x18, 0x84, 0xA1, 0xE5, 0xA1, 0x3A, 0xE3, 0xA1, 0x3A])).toOption =
      some (.bc6hMode6 fields6) := by decide +kernel

/-- V-BC-M7. -/
def fields7 : BlockFields :=
  ⟨⟨⟨85, 1, 2, 3⟩, ⟨51, 63, 62, 1⟩, ⟨15, 16, 0, 15⟩⟩, 20, [1, 6, 3, 0, 5, 2, 7, 4, 1, 6, 3, 0, 5, 2, 7, 4]⟩
theorem test_decode_bc6hMode7 :
    (decodeBytes (bytesOf [0xB6, 0xAA, 0x99, 0x1F, 0x08, 0xFC, 0x0F, 0x18, 0xC4, 0x91, 0xE6, 0x51, 0x9D, 0xF1, 0x50, 0x9D])).toOption =
      some (.bc6hMode7 fields7) := by decide +kernel

/-- V-BC-M8. -/
def fields8 : BlockFields :=
  ⟨⟨⟨85, 1, 2, 3⟩, ⟨51, 31, 30, 1⟩, ⟨15, 32, 0, 31⟩⟩, 27, [1, 6, 3, 0, 5, 2, 7, 4, 1, 6, 3, 0, 5, 2, 7, 4]⟩
theorem test_decode_bc6hMode8 :
    (decodeBytes (bytesOf [0xBA, 0xAA, 0x19, 0x1F, 0x0C, 0xFC, 0x0F, 0x10, 0xC4, 0x71, 0xE7, 0x51, 0x9D, 0xF1, 0x50, 0x9D])).toOption =
      some (.bc6hMode8 fields8) := by decide +kernel

/-- V-BC-M9. -/
def fields9 : BlockFields :=
  ⟨⟨⟨21, 1, 2, 3⟩, ⟨51, 63, 62, 1⟩, ⟨15, 32, 0, 31⟩⟩, 2, [1, 6, 3, 0, 5, 2, 7, 4, 1, 6, 3, 0, 5, 2, 7, 0]⟩
theorem test_decode_bc6hMode9 :
    (decodeBytes (bytesOf [0xBE, 0xB2, 0xB9, 0x1F, 0x0D, 0xFC, 0x0F, 0x10, 0x84, 0x41, 0xE4, 0xA1, 0x3A, 0xE3, 0xA1, 0x3A])).toOption =
      some (.bc6hMode9 fields9) := by decide +kernel

/-- V-BC-M10. -/
def fields10 : BlockFields :=
  ⟨⟨⟨341, 1, 0, 0⟩, ⟨819, 1023, 0, 0⟩, ⟨783, 512, 0, 0⟩⟩, 0, [1, 6, 11, 0, 5, 10, 15, 4, 9, 14, 3, 8, 13, 2, 7, 12]⟩
theorem test_decode_bc6hMode10 :
    (decodeBytes (bytesOf [0xA3, 0xAA, 0x99, 0x1F, 0x0E, 0xE0, 0x7F, 0x00, 0x63, 0x0B, 0xA5, 0x4F, 0xE9, 0x83, 0x2D, 0xC7])).toOption =
      some (.bc6hMode10 fields10) := by decide +kernel

/-- V-BC-M11. -/
def fields11 : BlockFields :=
  ⟨⟨⟨1365, 1, 0, 0⟩, ⟨819, 511, 0, 0⟩, ⟨1807, 256, 0, 0⟩⟩, 0, [1, 6, 11, 0, 5, 10, 15, 4, 9, 14, 3, 8, 13, 2, 7, 12]⟩
theorem test_decode_bc6hMode11 :
    (decodeBytes (bytesOf [0xA7, 0xAA, 0x99, 0x1F, 0x0E, 0xF0, 0x3F, 0x80, 0x63, 0x0B, 0xA5, 0x4F, 0xE9, 0x83, 0x2D, 0xC7])).toOption =
      some (.bc6hMode11 fields11) := by decide +kernel

/-- V-BC-M12. -/
def fields12 : BlockFields :=
  ⟨⟨⟨1365, 1, 0, 0⟩, ⟨819, 255, 0, 0⟩, ⟨3855, 128, 0, 0⟩⟩, 0, [1, 6, 11, 0, 5, 10, 15, 4, 9, 14, 3, 8, 13, 2, 7, 12]⟩
theorem test_decode_bc6hMode12 :
    (decodeBytes (bytesOf [0xAB, 0xAA, 0x99, 0x1F, 0x0E, 0xF0, 0x1F, 0xC0, 0x63, 0x0B, 0xA5, 0x4F, 0xE9, 0x83, 0x2D, 0xC7])).toOption =
      some (.bc6hMode12 fields12) := by decide +kernel

/-- V-BC-M13. -/
def fields13 : BlockFields :=
  ⟨⟨⟨21845, 1, 0, 0⟩, ⟨13107, 15, 0, 0⟩, ⟨3855, 8, 0, 0⟩⟩, 0, [1, 6, 11, 0, 5, 10, 15, 4, 9, 14, 3, 8, 13, 2, 7, 12]⟩
theorem test_decode_bc6hMode13 :
    (decodeBytes (bytesOf [0xAF, 0xAA, 0x99, 0x1F, 0x0E, 0xF5, 0x19, 0x84, 0x63, 0x0B, 0xA5, 0x4F, 0xE9, 0x83, 0x2D, 0xC7])).toOption =
      some (.bc6hMode13 fields13) := by decide +kernel

theorem test_decode_bc6hModeRsv : [0x13, 0x17, 0x3B, 0xFF].map (fun b => decodeTableWord 8 b) =
    [some (.bc6hModeRsv 0x13), some (.bc6hModeRsv 0x17), some (.bc6hModeRsv 0x1B), some (.bc6hModeRsv 0x1F)] := by
  decide +kernel

/-! ## The bit reader: V-BS-1 to V-BS-5 -/

theorem test_readBits_spans_bytes :
    after (exec (.readBits 8) (reading [0xA5, 0x3C] 4)) (fun t => (t.work.rdata.toNat, t.work.cur)) = some (0xCA, 12) := by
  decide +kernel
theorem test_readBits_overruns : after (exec (.readBits 9) (reading [0xA5] 120)) (fun t => (t.status.toNat, t.work.cur)) =
    some (0x52, 120) := by decide +kernel
theorem test_readBitsR_reverses :
    after (exec (.readBitsR 5) (reading [0xA5, 0x4D] 3)) (fun t => (t.work.rdata.toNat, t.work.cur)) = some (5, 8) := by
  decide +kernel
theorem test_readBitsR_first_bit_highest :
    after (exec (.readBitsR 6) (reading [0x01] 0)) (fun t => t.work.rdata.toNat) = some 32 := by decide +kernel

/-! ## The block modes: V-BC-M0 to V-BC-M13, H with S = 1 and EP with S = 0 -/

theorem test_exec_bc6hMode0_signed_pixels : after (exec (.bc6hMode0 fields0) (decoding true (.bytes []))) pixels =
    some [
      [0x52BD, 0xB1CD, 0xBB08], [0x52EA, 0xB1FA, 0xBDD1], [0x52CF, 0xB1DF, 0xBC1F], [0x5331, 0xB241, 0xBA7D],
      [0x52E1, 0xB1F1, 0xBD46], [0x52C6, 0xB1D6, 0xBB94], [0x536F, 0xB187, 0xB6DB], [0x5354, 0xB1D5, 0xB863],
      [0x52BD, 0xB1CD, 0xBB08], [0x52EA, 0xB1FA, 0xBDD1], [0x534B, 0xB1F2, 0xB8F4], [0x5331, 0xB241, 0xBA7D],
      [0x52E1, 0xB1F1, 0xBD46], [0x5342, 0xB20C, 0xB977], [0x536F, 0xB187, 0xB6DB], [0x5331, 0xB241, 0xBA7D]] := by decide +kernel
theorem test_exec_bc6hMode0_unsigned_endpoints :
    after (exec (.bc6hMode0 fields0) (decoding false (.bytes []))) endpoints =
      some [[21856, 21920, 21984, 22048], [52448, 52384, 52320, 52512], [50144, 49120, 50144, 51104]] := by decide +kernel

theorem test_exec_bc6hMode1_signed_pixels : after (exec (.bc6hMode1 fields1) (decoding true (.bytes []))) pixels =
    some [
      [0xD402, 0x6382, 0x150A], [0xD29D, 0x621D, 0x98EA], [0xD376, 0x62F6, 0x030E], [0xD448, 0x63C8, 0x1E08],
      [0xD2E3, 0x6263, 0x8FEC], [0xD3BC, 0x633C, 0x0C0C], [0xD258, 0x61D8, 0xA1E8], [0xCF49, 0x6344, 0x40C1],
      [0xD402, 0x6382, 0x150A], [0xCEBD, 0x64E6, 0x51A5], [0xCF96, 0x625B, 0x375E], [0xD068, 0x5FE8, 0x1E08],
      [0xCF03, 0x6415, 0x4933], [0xCFDC, 0x618A, 0x2EEC], [0xCE78, 0x65B8, 0x5A18], [0xD068, 0x5FE8, 0x1E08]] := by decide +kernel
theorem test_exec_bc6hMode1_unsigned_endpoints :
    after (exec (.bc6hMode1 fields1) (decoding false (.bytes []))) endpoints =
      some [[43776, 44288, 44800, 45312], [26368, 25856, 25344, 26880], [7936, 57088, 7936, 23808]] := by decide +kernel

theorem test_exec_bc6hMode2_signed_pixels : after (exec (.bc6hMode2 fields2) (decoding true (.bytes []))) pixels =
    some [
      [0xD2BF, 0x6338, 0x9D61], [0xD26B, 0x634E, 0x9C83], [0xD278, 0x6326, 0x9CE2], [0xD286, 0x62FE, 0x9D3E],
      [0xD2AE, 0x6326, 0x9DF0], [0xD2BB, 0x6333, 0x9D84], [0xD2A5, 0x631D, 0x9E36], [0xD274, 0x6334, 0x9CC0],
      [0xD2BF, 0x6338, 0x9D61], [0xD2A9, 0x6322, 0x9E13], [0xD2B6, 0x632F, 0x9DA7], [0xD2C4, 0x633C, 0x9D3E],
      [0xD2AE, 0x6326, 0x9DF0], [0xD2BB, 0x6333, 0x9D84], [0xD2A5, 0x631D, 0x9E36], [0xD2B2, 0x632B, 0x9DCD]] := by decide +kernel
theorem test_exec_bc6hMode2_unsigned_endpoints :
    after (exec (.bc6hMode2 fields2) (decoding false (.bytes []))) endpoints =
      some [[43696, 43728, 43760, 43792], [26224, 26192, 26160, 26256], [57840, 57584, 57840, 58064]] := by decide +kernel

theorem test_exec_bc6hMode3_signed_pixels : after (exec (.bc6hMode3 fields3) (decoding true (.bytes []))) pixels =
    some [
      [0xD2BF, 0x6338, 0x9D61], [0xD2A9, 0x6322, 0x9E13], [0xD278, 0x6326, 0x9CE2], [0xD286, 0x62FE, 0x9D3E],
      [0xD2AE, 0x6326, 0x9DF0], [0xD2BB, 0x6333, 0x9D84], [0xD2A5, 0x631D, 0x9E36], [0xD274, 0x6334, 0x9CC0],
      [0xD2BF, 0x6338, 0x9D61], [0xD2A9, 0x6322, 0x9E13], [0xD2B6, 0x632F, 0x9DA7], [0xD286, 0x62FE, 0x9D3E],
      [0xD2AE, 0x6326, 0x9DF0], [0xD2BB, 0x6333, 0x9D84], [0xD2A5, 0x631D, 0x9E36], [0xD2B2, 0x632B, 0x9DCD]] := by decide +kernel
theorem test_exec_bc6hMode3_unsigned_endpoints :
    after (exec (.bc6hMode3 fields3) (decoding false (.bytes []))) endpoints =
      some [[43696, 43728, 43760, 43792], [26224, 26192, 26160, 26256], [57840, 57584, 57840, 58064]] := by decide +kernel

theorem test_exec_bc6hMode4_signed_pixels : after (exec (.bc6hMode4 fields4) (decoding true (.bytes []))) pixels =
    some [
      [0xD2BF, 0x6338, 0x9D84], [0xD2A9, 0x6322, 0x9EE8], [0xD278, 0x6326, 0x9C79], [0xD286, 0x62FE, 0x9D3E],
      [0xD270, 0x6341, 0x9BF0], [0xD2BB, 0x6333, 0x9DCA], [0xD2A5, 0x631D, 0x9F2E], [0xD274, 0x6334, 0x9C31],
      [0xD281, 0x630C, 0x9CFC], [0xD2A9, 0x6322, 0x9EE8], [0xD2B6, 0x632F, 0x9E0F], [0xD286, 0x62FE, 0x9D3E],
      [0xD270, 0x6341, 0x9BF0], [0xD27D, 0x6318, 0x9CBB], [0xD2A5, 0x631D, 0x9F2E], [0xD2B2, 0x632B, 0x9E5D]] := by decide +kernel
theorem test_exec_bc6hMode4_unsigned_endpoints :
    after (exec (.bc6hMode4 fields4) (decoding false (.bytes []))) endpoints =
      some [[43696, 43728, 43760, 43792], [26224, 26192, 26160, 26256], [57840, 57328, 57840, 58320]] := by decide +kernel

theorem test_exec_bc6hMode5_signed_pixels : after (exec (.bc6hMode5 fields5) (decoding true (.bytes []))) pixels =
    some [
      [0xD300, 0xE39B, 0xD316], [0xD2A7, 0xE3F4, 0x5A1B], [0xD2DD, 0xE3BE, 0x8F50], [0xD21A, 0xE482, 0xF4FA],
      [0xD2B8, 0xE3E3, 0x3838], [0xD2EF, 0xE3AC, 0xB133], [0xD19E, 0xE30E, 0xEDB6], [0xD1D2, 0xE3AA, 0xF0C6],
      [0xD300, 0xE39B, 0xD316], [0xD1AF, 0xE342, 0xEEBB], [0xD1E5, 0xE3E5, 0xF1E9], [0xD21A, 0xE482, 0xF4FA],
      [0xD1C0, 0xE376, 0xEFC1], [0xD1F7, 0xE419, 0xF2EE], [0xD19E, 0xE30E, 0xEDB6], [0xD21A, 0xE482, 0xF4FA]] := by decide +kernel
theorem test_exec_bc6hMode5_unsigned_endpoints :
    after (exec (.bc6hMode5 fields5) (decoding false (.bytes []))) endpoints =
      some [[43712, 43840, 43968, 44096], [39360, 39232, 39104, 39488], [34752, 32704, 34752, 36672]] := by decide +kernel

theorem test_exec_bc6hMode6_signed_pixels : after (exec (.bc6hMode6 fields6) (decoding true (.bytes []))) pixels =
    some [
      [0x52F6, 0x31C1, 0x0CB3], [0x53A9, 0x310E, 0x00DC], [0x533C, 0x317B, 0x0811], [0x52D4, 0x31E4, 0x0F04],
      [0x5386, 0x3131, 0x032D], [0x5319, 0x319E, 0x0A62], [0x53CC, 0x30EC, 0x8174], [0x5363, 0x3154, 0x057E],
      [0x54E6, 0x305C, 0x110F], [0x5599, 0x3273, 0x1B80], [0x552C, 0x312D, 0x1525], [0x54C4, 0x2FF4, 0x0F04],
      [0x5576, 0x320A, 0x1975], [0x5509, 0x30C5, 0x131A], [0x55BC, 0x32DC, 0x1D8C], [0x54C4, 0x2FF4, 0x0F04]] := by decide +kernel
theorem test_exec_bc6hMode6_unsigned_endpoints :
    after (exec (.bc6hMode6 fields6) (decoding false (.bytes []))) endpoints =
      some [[21888, 22144, 22400, 22656], [13184, 12928, 12672, 13440], [3968, 65535, 3968, 7808]] := by decide +kernel

theorem test_exec_bc6hMode7_signed_pixels : after (exec (.bc6hMode7 fields7) (decoding true (.bytes []))) pixels =
    some [
      [0x52F6, 0x31C1, 0x0CB3], [0x53A9, 0x310E, 0x00DC], [0x552C, 0x312D, 0x1525], [0x54C4, 0x2FF4, 0x0F04],
      [0x5386, 0x3131, 0x032D], [0x5319, 0x319E, 0x0A62], [0x53CC, 0x30EC, 0x8174], [0x5553, 0x31A2, 0x176A],
      [0x52F6, 0x31C1, 0x0CB3], [0x53A9, 0x310E, 0x00DC], [0x533C, 0x317B, 0x0811], [0x52D4, 0x31E4, 0x0F04],
      [0x5386, 0x3131, 0x032D], [0x5319, 0x319E, 0x0A62], [0x53CC, 0x30EC, 0x8174], [0x5363, 0x3154, 0x057E]] := by decide +kernel
theorem test_exec_bc6hMode7_unsigned_endpoints :
    after (exec (.bc6hMode7 fields7) (decoding false (.bytes []))) endpoints =
      some [[21888, 22144, 22400, 22656], [13184, 12928, 12672, 13440], [3968, 65535, 3968, 7808]] := by decide +kernel

theorem test_exec_bc6hMode8_signed_pixels : after (exec (.bc6hMode8 fields8) (decoding true (.bytes []))) pixels =
    some [
      [0x52F6, 0x31C1, 0x0A85], [0x53A9, 0x310E, 0x8C75], [0x552C, 0x312D, 0x1BAF], [0x54C4, 0x2FF4, 0x0F04],
      [0x5386, 0x3131, 0x87F6], [0x5509, 0x30C5, 0x1776], [0x55BC, 0x32DC, 0x2D0C], [0x5363, 0x3154, 0x8377],
      [0x52F6, 0x31C1, 0x0A85], [0x5599, 0x3273, 0x28D2], [0x552C, 0x312D, 0x1BAF], [0x52D4, 0x31E4, 0x0F04],
      [0x5576, 0x320A, 0x2499], [0x5509, 0x30C5, 0x1776], [0x53CC, 0x30EC, 0x90F4], [0x5363, 0x3154, 0x8377]] := by decide +kernel
theorem test_exec_bc6hMode8_unsigned_endpoints :
    after (exec (.bc6hMode8 fields8) (decoding false (.bytes []))) endpoints =
      some [[21888, 22144, 22400, 22656], [13184, 12928, 12672, 13440], [3968, 61312, 3968, 11904]] := by decide +kernel

theorem test_exec_bc6hMode9_signed_pixels : after (exec (.bc6hMode9 fields9) (decoding true (.bytes []))) pixels =
    some [
      [0x486A, 0xADC6, 0x222D], [0x0D04, 0x03A2, 0x6A8F], [0x0B52, 0x8326, 0x3450], [0x09B0, 0x89B0, 0x0000],
      [0x1B9C, 0x92E4, 0xC83A], [0x0AC7, 0x8554, 0x22E0], [0x0D90, 0x05D0, 0x7BFF], [0x0BED, 0x80BA, 0x47AF],
      [0x486A, 0xADC6, 0x222D], [0x0D04, 0x03A2, 0x6A8F], [0x0B52, 0x8326, 0x3450], [0x09B0, 0x89B0, 0x0000],
      [0x1B9C, 0x92E4, 0xC83A], [0x0AC7, 0x8554, 0x22E0], [0x0D90, 0x05D0, 0x7BFF], [0x09B0, 0x89B0, 0x0000]] := by decide +kernel
theorem test_exec_bc6hMode9_unsigned_endpoints :
    after (exec (.bc6hMode9 fields9) (decoding false (.bytes []))) endpoints =
      some [[22016, 1536, 2560, 3584], [52736, 65535, 64000, 1536], [15872, 33280, 0, 32256]] := by decide +kernel

theorem test_exec_bc6hMode10_signed_pixels : after (exec (.bc6hMode10 fields10) (decoding true (.bytes []))) pixels =
    some [
      [0x4D8F, 0xAEAE, 0xBE95], [0x3141, 0x9DB2, 0xD51A], [0x163C, 0x8D7C, 0xEA98], [0x52B5, 0xB1C5, 0xBA7D],
      [0x37B0, 0xA18E, 0xCFFB], [0x1B61, 0x9093, 0xE680], [0x005D, 0x805D, 0xFBFF], [0x3CD5, 0xA4A5, 0xCBE3],
      [0x21D0, 0x946F, 0xE161], [0x0582, 0x8373, 0xF7E6], [0x41FB, 0xA7BB, 0xC7CB], [0x26F6, 0x9785, 0xDD49],
      [0x0BF1, 0x874F, 0xF2C9], [0x4720, 0xAAD2, 0xC3B2], [0x2C1B, 0x9A9C, 0xD932], [0x1116, 0x8A66, 0xEEB0]] := by decide +kernel
theorem test_exec_bc6hMode10_unsigned_endpoints :
    after (exec (.bc6hMode10 fields10) (decoding false (.bytes []))) endpoints =
      some [[21856, 96, 0, 0], [52448, 65535, 0, 0], [50144, 32800, 0, 0]] := by decide +kernel

theorem test_exec_bc6hMode11_signed_pixels : after (exec (.bc6hMode11 fields11) (decoding true (.bytes []))) pixels =
    some [
      [0xD2C2, 0x633A, 0x9F2E], [0xD2B7, 0x632F, 0xA9D6], [0xD2AD, 0x6326, 0xB402], [0xD2C4, 0x633C, 0x9D3E],
      [0xD2B9, 0x6332, 0xA76A], [0xD2AF, 0x6328, 0xB212], [0xD2A5, 0x631D, 0xBC3E], [0xD2BB, 0x6334, 0xA57A],
      [0xD2B2, 0x632A, 0xAFA6], [0xD2A7, 0x631F, 0xBA4E], [0xD2BD, 0x6336, 0xA38A], [0xD2B4, 0x632C, 0xADB6],
      [0xD2A9, 0x6322, 0xB7E2], [0xD2BF, 0x6338, 0xA19A], [0xD2B5, 0x632D, 0xABC6], [0xD2AB, 0x6324, 0xB5F2]] := by decide +kernel
theorem test_exec_bc6hMode11_unsigned_endpoints :
    after (exec (.bc6hMode11 fields11) (decoding false (.bytes []))) endpoints =
      some [[43696, 43728, 0, 0], [26224, 26192, 0, 0], [57840, 49648, 0, 0]] := by decide +kernel

theorem test_exec_bc6hMode12_signed_pixels : after (exec (.bc6hMode12 fields12) (decoding true (.bytes []))) pixels =
    some [
      [0x52AE, 0x319D, 0x8F1B], [0x52B4, 0x3198, 0x91C5], [0x52B8, 0x3192, 0x9450], [0x52AD, 0x319E, 0x8E9F],
      [0x52B2, 0x3199, 0x912A], [0x52B7, 0x3193, 0x93D4], [0x52BC, 0x318E, 0x965F], [0x52B1, 0x319A, 0x90AE],
      [0x52B6, 0x3195, 0x9339], [0x52BB, 0x318F, 0x95E3], [0x52B0, 0x319B, 0x9032], [0x52B5, 0x3196, 0x92BD],
      [0x52BA, 0x3190, 0x9548], [0x52AF, 0x319C, 0x8FB6], [0x52B5, 0x3197, 0x9241], [0x52B9, 0x3191, 0x94CC]] := by decide +kernel
theorem test_exec_bc6hMode12_unsigned_endpoints :
    after (exec (.bc6hMode12 fields12) (decoding false (.bytes []))) endpoints =
      some [[21848, 21864, 0, 0], [13112, 13096, 0, 0], [61688, 59640, 0, 0]] := by decide +kernel

theorem test_exec_bc6hMode13_signed_pixels : after (exec (.bc6hMode13 fields13) (decoding true (.bytes []))) pixels =
    some [
      [0x52AA, 0x3199, 0x0E96], [0x52AA, 0x3199, 0x0E93], [0x52AB, 0x3198, 0x0E90], [0x52AA, 0x3199, 0x0E96],
      [0x52AA, 0x3199, 0x0E93], [0x52AB, 0x3198, 0x0E91], [0x52AB, 0x3198, 0x0E8E], [0x52AA, 0x3199, 0x0E94],
      [0x52AB, 0x3198, 0x0E91], [0x52AB, 0x3198, 0x0E8F], [0x52AA, 0x3199, 0x0E94], [0x52AB, 0x3198, 0x0E92],
      [0x52AB, 0x3198, 0x0E8F], [0x52AA, 0x3199, 0x0E95], [0x52AA, 0x3199, 0x0E92], [0x52AB, 0x3198, 0x0E90]] := by decide +kernel
theorem test_exec_bc6hMode13_unsigned_endpoints :
    after (exec (.bc6hMode13 fields13) (decoding false (.bytes []))) endpoints =
      some [[21845, 21846, 0, 0], [13107, 13106, 0, 0], [3855, 3847, 0, 0]] := by decide +kernel

theorem test_exec_bc6hModeRsv_black :
    after (exec (.bc6hModeRsv 0x1F) (holding (.bytes []))) result = some (0, List.replicate 16 0xFF000000) := by decide +kernel

/-! ## The commands -/

/-- V-BC-4: floor, not truncation, on a negative sum. -/
theorem test_bc6hDec_floors_negative_sums :
    after (exec (.bc6hDec true) (holding (.bytes (bytesOf
      [0x03, 0, 0, 0, 0xF8, 0xFF, 0xFF, 0xFF, 0x81, 0, 0, 0, 0, 0, 0, 0xF0])))) (fun t => (t.status.toNat, (pixels t).take 2)) =
      some (1, [[0, 0, 0], [0x8031, 0x8031, 0x8031]]) := by decide +kernel
/-- V-BC-1. -/
theorem test_bc6hDec_reserved_block :
    after (exec (.bc6hDec false) (holding (.bytes (List.replicate 16 0xFF#8)))) result =
      some (1, List.replicate 16 0xFF000000) := by decide +kernel
/-- V-BC-13. -/
theorem test_bc6hDecF_refuses_fifteen_bytes :
    after (exec (.bc6hDecF false) (holding (.bytes (List.replicate 15 0#8)))) result = some (0x22, [0xEE]) := by decide +kernel
/-- V-SRC-2 with BC6H_DEC_F. -/
theorem test_bc6hDecF_reserved_block :
    after (exec (.bc6hDecF true) (holding (.bytes (List.replicate 16 0x13#8)))) result =
      some (1, List.replicate 16 0xFF000000) := by decide +kernel
/-- V-MO-1. -/
theorem test_mortonIndex_interleaves :
    after (exec .mortonIndex { State.reset with xcoord := 1234, ycoord := 4321 }) (fun t => (t.status.toNat, t.result.toNat)) =
      some (1, 34666758) := by decide +kernel
theorem test_mortonIndex_refuses_large_coordinate :
    after (exec .mortonIndex { State.reset with xcoord := 65536, result := 7 }) (fun t => (t.status.toNat, t.result.toNat)) =
      some (0x22, 7) := by decide +kernel
/-- V-MO-5. -/
theorem test_mortonSwz_skips_outside_elements :
    after (exec .mortonSwz (image 3 2 1 0 (.bytes (bytesOf (List.range 6))))) result = some (1, [0, 1, 3, 4, 2, 0]) := by
  decide +kernel
/-- V-MO-6. -/
theorem test_mortonSwz_refuses_partial_element :
    after (exec .mortonSwz (image 4 4 2 0 (.bytes (List.replicate 31 0#8)))) result = some (0x32, [0xEE]) := by decide +kernel
/-- V-MO-5. -/
theorem test_mortonUnswz_nonsquare :
    after (exec .mortonUnswz (image 3 2 1 0 (.bytes (bytesOf (List.range 6))))) result = some (1, [0, 1, 4, 2, 3, 0]) := by
  decide +kernel
/-- V-MO-4. -/
theorem test_mortonUnswz_moves_elements_whole :
    after (exec .mortonUnswz (image 2 2 2 0 (.bytes (bytesOf (List.range 8))))) result = some (1, List.range 8) := by
  decide +kernel
/-- V-PAL-2. -/
theorem test_palStripe_two_parts :
    after (exec .palStripe (holding (.words (wordsOf (List.range 64))))) result =
      some (1, List.range' 0 8 ++ List.range' 16 8 ++ List.range' 8 8 ++ List.range' 24 8 ++
        List.range' 32 8 ++ List.range' 48 8 ++ List.range' 40 8 ++ List.range' 56 8) := by decide +kernel
/-- V-PAL-4. -/
theorem test_palStripe_refuses_half_part :
    after (exec .palStripe (holding (.words (wordsOf (List.range 48))))) result = some (0x22, [0xEE]) := by decide +kernel
/-- V-PAL-1. -/
theorem test_palUnstripe_one_part :
    after (exec .palUnstripe (holding (.words (wordsOf (List.range 32))))) result =
      some (1, List.range' 0 8 ++ List.range' 16 8 ++ List.range' 8 8 ++ List.range' 24 8) := by decide +kernel
/-- V-P2-3. -/
theorem test_ps2Swz8_outside_domain :
    after (exec .ps2Swz8 (image 8 2 0 0 (.bytes (bytesOf (List.range 16))))) result =
      some (1, [0, 0, 0, 0, 1, 0, 0, 0, 2, 0, 0, 0, 3, 0, 0, 0]) := by decide +kernel
/-- V-P2-2, first and third line. -/
theorem test_ps2Swz8_one_tile :
    after (exec .ps2Swz8 (image 16 4 0 0 (.bytes (bytesOf (List.range 64)))))
      (fun t => (t.status.toNat, (result t).2.take 8, ((result t).2.drop 32).take 8)) =
      some (1, [0, 36, 8, 44, 1, 37, 9, 45], [16, 52, 24, 60, 17, 53, 25, 61]) := by decide +kernel
/-- V-P2-3. -/
theorem test_ps2Unswz8_outside_domain :
    after (exec .ps2Unswz8 (image 8 2 0 0 (.bytes (bytesOf (List.range 16))))) result =
      some (1, [0, 4, 8, 12, 0, 0, 0, 0, 0, 0, 0, 0, 0, 0, 0, 0]) := by decide +kernel
/-- A replaced PS2_IDX8, whatever it is: the command still completes (00_scope.md R7). -/
theorem test_ps2Unswz8_custom_index_completes :
    after (exec .ps2Unswz8 { image 8 2 0 0 (.bytes (bytesOf (List.range 16))) with ps2Index := .custom 3 }) (·.status) =
      some 1 := by decide +kernel
/-- V-P2-4. -/
theorem test_ps2Swz32_moves_words :
    after (exec .ps2Swz32 (image 16 4 0 0 (.words (wordsOf ((List.range 64).map (· + 0xA0000000))))))
      (fun t => (t.status.toNat, (result t).2.take 4)) =
      some (1, [0xA0000000, 0xA0000024, 0xA0000008, 0xA000002C]) := by decide +kernel
theorem test_ps2Swz32_refuses_bytes :
    after (exec .ps2Swz32 (image 1 1 0 0 (.bytes [1]))) result = some (0x32, [0xEE]) := by decide +kernel
/-- V-P2-1, row 0. -/
theorem test_ps2Unswz32_row :
    after (exec .ps2Unswz32 (image 16 4 0 0 (.words (wordsOf (List.range 64)))))
      (fun t => (t.status.toNat, (result t).2.take 9)) = some (1, [0, 4, 8, 12, 16, 20, 24, 28, 2]) := by decide +kernel
/-- V-EA-5. -/
theorem test_ps2Swz4_refuses_seven_bytes :
    after (exec .ps2Swz4 (image 4 4 0 0 (.bytes (List.replicate 7 0#8)))) result = some (0x32, [0xEE]) := by decide +kernel
theorem test_ps2Swz4_completes_on_eight_bytes :
    after (exec .ps2Swz4 (image 4 4 0 0 (.bytes (List.replicate 8 0#8)))) (·.status) = some 1 := by decide +kernel

theorem test_ps2Unswz4_size_limits :
    after (exec .ps2Unswz4 (image 4 4 0 0 (.bytes (List.replicate 8 0#8)))) (·.status) = some 1 ∧
      after (exec .ps2Unswz4 (image 4 4 0 0 (.bytes (List.replicate 7 0#8)))) (·.status) = some 0x32 := by decide +kernel
theorem test_subaSwz4_size_limits :
    after (exec .subaSwz4 (image 4 4 0 0 (.bytes (List.replicate 8 0#8)))) (·.status) = some 1 ∧
      after (exec .subaSwz4 (image 4 4 0 0 (.bytes (List.replicate 7 0#8)))) (·.status) = some 0x32 := by decide +kernel
theorem test_subaUnswz4_size_limits :
    after (exec .subaUnswz4 (image 4 4 0 0 (.bytes (List.replicate 8 0#8)))) (·.status) = some 1 ∧
      after (exec .subaUnswz4 (image 4 4 0 0 (.bytes (List.replicate 7 0#8)))) (·.status) = some 0x32 := by decide +kernel
theorem test_subaSwz8_size_limits :
    after (exec .subaSwz8 (image 4 4 0 0 (.bytes (List.replicate 16 0#8)))) (·.status) = some 1 ∧
      after (exec .subaSwz8 (image 4 4 0 0 (.bytes (List.replicate 15 0#8)))) (·.status) = some 0x32 := by decide +kernel
theorem test_subaUnswz8_size_limits :
    after (exec .subaUnswz8 (image 4 4 0 0 (.bytes (List.replicate 16 0#8)))) (·.status) = some 1 ∧
      after (exec .subaUnswz8 (image 4 4 0 0 (.bytes (List.replicate 15 0#8)))) (·.status) = some 0x32 := by decide +kernel
theorem test_subaSwz16_size_limits :
    after (exec .subaSwz16 (image 4 4 0 0 (.bytes (List.replicate 32 0#8)))) (·.status) = some 1 ∧
      after (exec .subaSwz16 (image 4 4 0 0 (.bytes (List.replicate 31 0#8)))) (·.status) = some 0x32 := by decide +kernel
theorem test_subaUnswz16_size_limits :
    after (exec .subaUnswz16 (image 4 4 0 0 (.bytes (List.replicate 32 0#8)))) (·.status) = some 1 ∧
      after (exec .subaUnswz16 (image 4 4 0 0 (.bytes (List.replicate 31 0#8)))) (·.status) = some 0x32 := by decide +kernel
/-- V-PSP-3. -/
theorem test_pspSwz_row_of_24 :
    after (exec .pspSwz (image 24 2 0 8 (.bytes (bytesOf (List.range 48))))) result =
      some (1, List.range' 0 16 ++ List.range' 24 16 ++ List.replicate 16 0) := by decide +kernel
/-- V-PSP-9: the check of BPP comes before the check of WIDTH. -/
theorem test_pspSwz_refuses_three_bits :
    after (exec .pspSwz (image 0 8 0 3 (.bytes []))) result = some (0x22, [0xEE]) := by decide +kernel
/-- V-PSP-3. -/
theorem test_pspUnswz_row_of_24 :
    after (exec .pspUnswz (image 24 2 0 8 (.bytes (bytesOf (List.range 48))))) result =
      some (1, List.range' 0 16 ++ List.replicate 8 0 ++ List.range' 16 16 ++ List.replicate 8 0) := by decide +kernel
/-- V-PSP-6. -/
theorem test_pspUnswz_narrow_rows :
    after (exec .pspUnswz (image 8 2 0 8 (.bytes (bytesOf (List.range 16))))) result =
      some (1, List.range' 0 8 ++ List.replicate 8 0) := by decide +kernel

/-! ## Steps -/

/-- The CMD table of 95_test_vectors.md. -/
theorem test_step_illegal_words :
    [0x00000000#32, 0x00000003#32, 0x00000111#32, 0x00000201#32].map
      (fun w => after (step (queued [.setReg 0 w])) (fun t => (t.status.toNat, t.cmd))) =
      [some (0x12, 0x00000000#32), some (0x12, 0x00000003#32), some (0x12, 0x00000111#32), some (0x12, 0x00000201#32)] := by
  decide +kernel
/-- The CMD table: RF_PARAM is checked before RF_ALIAS. -/
theorem test_step_alias_order :
    [15, 16].map (fun n => after
      (step { queued [.setReg 0 1] with mem := ⟨.bytes (List.replicate n 0#8), .bytes [], true⟩ }) (·.status)) =
      [some 0x22#32, some 0x42#32] := by decide +kernel
theorem test_step_status_write_ignored :
    after (step { queued [.setReg 7 9] with status := 1 }) (·.status) = some 1 := by decide +kernel
theorem test_step_reset_keeps_buffers :
    after (step { image 4 4 1 8 (.bytes [5]) with pending := [.resetCore], status := 1, ps2Index := .custom 3 })
      (fun t => (t.width, t.status, t.mem.src, t.ps2Index)) = some (0, 0, .bytes [5], .custom 3) := by decide +kernel
theorem test_fetch_word_runs_command :
    after (step (State.reset.withFetchWord 32 0x10)) (fun t => (t.cmd, t.status, t.result)) = some (0x10, 1, 0) := by
  decide +kernel
theorem test_fetch_block_runs_mode :
    after (step (State.reset.withFetchWord 8 0x1E)) (fun t => (t.work.midx, t.work.cur, t.status)) =
      some (.mode 9, 128, 1) := by decide +kernel

/-! ## Witnesses: states and operands that meet the hypotheses of the statements -/

theorem witness_CmdWriteRunsDecodedCommand :
    (queued [.setReg 0 0x00000101#32]).pending = .setReg 0 0x00000101#32 :: [] ∧
      (decodeCmd 0x00000101#32).toOption = some (.bc6hDec true) := by decide +kernel

theorem witness_IllegalCmdWordRefusesBadOp :
    (∀ w, (queued [.setReg 0 w]).pending = .setReg 0 w :: []) ∧
    [0x00000000#32, 0x00000032#32, 0x00000110#32, 0x00000201#32, 0x80000001#32].all (fun w =>
      !assignedOps.contains (cmdOp w).toNat || (cmdS w && (cmdOp w).toNat != 1 && (cmdOp w).toNat != 2) || cmdRsv w != 0) ∧
    ¬ IllegalCmd 0x00000102#32 ∧ ¬ IllegalCmd 0x00000031#32 :=
  ⟨fun _ => rfl, by decide +kernel, by unfold IllegalCmd; decide +kernel, by unfold IllegalCmd; decide +kernel⟩

theorem witness_HostRegisterWritesStoreOrAreIgnored :
    ∀ n ∈ [1, 2, 3, 4, 5, 6, 7, 8], (queued [.setReg n 0xFFFFFFFF#32]).pending = .setReg n 0xFFFFFFFF#32 :: [] :=
  fun _ _ => rfl

theorem witness_HostBufferActionsAndIdle :
    (queued []).pending = [] ∧
    ∀ a ∈ [HostAction.loadSrc (.bytes []), .moveDstToSrc, .handOver (.words [1]) (.bytes []) true,
      .handOver (.bytes []) (.bytes []) true, .resetCore], (queued [a]).pending = a :: [] :=
  ⟨rfl, fun _ _ => rfl⟩

theorem witness_OnlyUnknownRegistersFault :
    (8 < 9 ∧ (queued [.setReg 9 0]).pending = .setReg 9 0 :: []) ∧
    ∀ n v, HostAction.setReg n v ∈ (queued [.setReg 8 1, .resetCore, .setReg 0 0x11]).pending → n ≤ 8 := by
  refine ⟨by decide, fun n v h => ?_⟩
  simp [queued] at h
  omega

/-- Each clause: PARAM at ESIZE 0, SHAPE one byte short, ALIAS with every check passed. -/
theorem witness_CommandsRefuseInCheckOrder :
    Instr.mortonSwz.format = .cmd ∧
    ¬ ParamLegal .mortonSwz (image 2 2 0 0 (.bytes [1])) ∧
    (ParamLegal .mortonSwz (image 2 2 1 0 (.bytes [1, 2, 3])) ∧ ¬ ShapeLegal .mortonSwz (image 2 2 1 0 (.bytes [1, 2, 3]))) ∧
    (let s := { image 2 2 1 0 (.bytes []) with mem := ⟨.bytes [1, 2, 3, 4], .bytes [], true⟩ }
     ParamLegal .mortonSwz s ∧ ShapeLegal .mortonSwz s ∧ SharesElement .mortonSwz s) := by
  unfold ParamLegal ShapeLegal SharesElement DimsLegal
  decide +kernel

theorem witness_CommandsCompleteWhenChecksPass :
    Instr.pspSwz.format = .cmd ∧ ParamLegal .pspSwz (image 16 1 0 8 (.bytes (List.replicate 16 3))) ∧
      ShapeLegal .pspSwz (image 16 1 0 8 (.bytes (List.replicate 16 3))) ∧
      ¬ SharesElement .pspSwz (image 16 1 0 8 (.bytes (List.replicate 16 3))) := by
  unfold ParamLegal ShapeLegal SharesElement DimsLegal
  decide +kernel

/-- One refusal for each reason. -/
theorem witness_RefusalLeavesAllButStatus :
    [image 2 2 0 0 (.bytes [1]), image 2 2 1 0 (.bytes [1]),
      { image 2 2 1 0 (.bytes []) with mem := ⟨.bytes [1, 2, 3, 4], .bytes [], true⟩ }].map
        (fun s => after (exec .mortonSwz s) (fun t => (refusedBit t.status, (reasonField t.status).toNat))) =
      [some (true, 2), some (true, 3), some (true, 4)] := by decide +kernel

theorem witness_EveryCommandReportsDoneOrRefused :
    ∀ w ∈ [0x00000010#32, 0x00000000#32], ∃ t, (queued [.setReg 0 w]).pending = .setReg 0 w :: [] ∧
      step (queued [.setReg 0 w]) = .next t := by
  intro w hw
  simp only [List.mem_cons, List.not_mem_nil, or_false] at hw
  obtain rfl | rfl := hw
  · exact ⟨_, rfl, rfl⟩
  · exact ⟨_, rfl, rfl⟩

/-- A command on a state: what CommandsLeaveSourceAndOperands and CommandsAreIdempotent ask. -/
theorem witness_CommandsLeaveSourceAndOperands :
    ∃ t, Instr.palStripe.format = .cmd ∧ exec .palStripe (holding (.words (List.replicate 32 5))) = .next t ∧
      Instr.palStripe ≠ .mortonIndex ∧ (∀ b, Instr.palStripe ≠ .bc6hDec b ∧ Instr.palStripe ≠ .bc6hDecF b) :=
  ⟨_, rfl, rfl, by decide, by decide⟩

/-- Two states that differ in DST, STATUS and RESULT. -/
theorem witness_OutputsDependOnOperandsAndSource :
    ∃ t t', Instr.mortonSwz.format = .cmd ∧
      SameOperands (image 2 2 1 0 (.bytes [1, 2, 3, 4]))
        { image 2 2 1 0 (.bytes [1, 2, 3, 4]) with status := 0x12, result := 9 } ∧
      exec .mortonSwz (image 2 2 1 0 (.bytes [1, 2, 3, 4])) = .next t ∧
      exec .mortonSwz { image 2 2 1 0 (.bytes [1, 2, 3, 4]) with status := 0x12, result := 9 } = .next t' ∧
      t.status = 0x00000001#32 :=
  ⟨_, _, rfl, ⟨rfl, rfl, rfl, rfl, rfl, rfl, rfl, rfl, rfl⟩, rfl, rfl, by decide +kernel⟩

theorem witness_WorkingRegistersNeverShow :
    (∃ t, step (queued [.setReg 0 0x10]) = .next t) ∧ step (queued [.setReg 9 0]) = .fault (.noSuchRegister 9) :=
  ⟨⟨_, rfl⟩, rfl⟩

theorem witness_DistinctInstancesCommute :
    ∃ q r, 0 ≠ 1 ∧ (Platform.mk [State.reset, queued [.setReg 1 4]]).stepAt 0 = some q ∧ q.stepAt 1 = some r :=
  ⟨_, _, by decide, rfl, rfl⟩

/-- The ends of each range of ReadBitsDeliversBlockBits and ReadBitsRDeliversReversedBits. -/
theorem witness_ReadBitsDeliversBlockBits :
    (1 ≤ 16 ∧ 16 ≤ 16 ∧ (reading [1] 112).work.cur + 16 ≤ 128) ∧ (1 ≤ 1 ∧ 1 ≤ 16 ∧ (reading [1] 127).work.cur + 1 ≤ 128) ∧
      0 < 1 ∧ 16 < 17 ∧ 128 < (reading [1] 128).work.cur + 1 := by decide

theorem witness_ReadsSummingTo128AreLossless :
    (∀ n ∈ [1, 2, 3, 4, 5, 6, 7, 8, 9, 10, 11, 12, 13, 14, 15, 8], 1 ≤ n ∧ n ≤ 16) ∧
      [1, 2, 3, 4, 5, 6, 7, 8, 9, 10, 11, 12, 13, 14, 15, 8].sum = 128 := by decide

theorem witness_ModeCodeIsTwoOrFiveBits :
    ((0x01#128).extractLsb' 0 2).toNat < 2 ∧ 2 ≤ ((0x02#128).extractLsb' 0 2).toNat := by decide

theorem witness_EveryBlockParsesToTheEnd :
    (parseBlock 0x0F#128).map (·.mode) = some (some 13) ∧ (parseBlock 0x13#128).map (·.mode) = some none := by decide +kernel

theorem witness_EncodeOfDecodeGivesBackTheBits :
    (decodeCmd 0x00000031#32).toOption = some .pspUnswz ∧
      (decodeBlock 0#128).toOption = some (.bc6hMode0 zeroFields) := by decide +kernel

theorem witness_DecodeOfEncodeIsTheInstruction :
    (Instr.bc6hMode13 fields13).wf = true ∧ (Instr.bc6hModeRsv 0x1F).wf = true ∧ (Instr.readBitsR 16).wf = true := by
  decide +kernel

/-- A valid and a reserved block. -/
theorem witness_Bc6hCommandsRunTheDecodedBlock :
    ByteSource (decoding true (.bytes (List.replicate 16 0xFF#8))) (List.replicate 16 0xFF#8) ∧
      ByteSource (decoding false (.bytes (List.replicate 16 0#8))) (List.replicate 16 0#8) ∧
      cmdS (decoding true (.bytes (List.replicate 16 0xFF#8))).cmd = true ∧
      cmdS (decoding false (.bytes (List.replicate 16 0#8))).cmd = false :=
  ⟨⟨rfl, rfl⟩, ⟨rfl, rfl⟩, by decide, by decide⟩

theorem witness_ReservedBlockDecodesToOpaqueBlack :
    ∀ b ∈ [0x13#8, 0x37#8, 0xFB#8, 0xFF#8], ByteSource (holding (.bytes (List.replicate 16 b))) (List.replicate 16 b) ∧
      (List.replicate 16 b).length = 16 ∧ reservedCodes.contains (((List.replicate 16 b).getD 0 0).setWidth 5) = true := by
  intro b hb
  exact ⟨⟨rfl, rfl⟩, by simp, by revert b; decide⟩

theorem witness_Bc6hOutputWordsArePackedArgb :
    (∃ t, exec (.bc6hDec false) (holding (.bytes (List.replicate 16 0#8))) = .next t ∧ t.status = 0x00000001#32 ∧
      t.work.midx = .mode 0) ∧
    (∃ t, exec (.bc6hDecF true) (holding (.bytes (List.replicate 16 0x1F#8))) = .next t ∧ t.status = 0x00000001#32 ∧
      t.work.midx = .rsv) :=
  ⟨⟨_, rfl, by decide +kernel, by decide +kernel⟩, ⟨_, rfl, by decide +kernel, by decide +kernel⟩⟩

theorem witness_SignExtensionIsTwosComplement : 1 ≤ 1 := by decide

/-- Both sides of every case of R118, at the ends of its ranges. -/
theorem witness_UnsignedUnquantize :
    (6 ≤ 15 ∧ 15 ≤ 16 ∧ (0 : Int) ≤ 32767 ∧ (32767 : Int) < 2 ^ 15) ∧ (6 ≤ 6 ∧ 6 < 15 ∧ (0 : Int) < 2 ^ 6) ∧
      ((63 : Int) = 2 ^ 6 - 1) ∧ ((62 : Int) ≠ 0 ∧ (62 : Int) ≠ 2 ^ 6 - 1) := by decide

/-- Both sides of every case of R119, at the ends of its ranges. -/
theorem witness_SignedUnquantize :
    (16 ≤ 16 ∧ -(2 : Int) ^ 15 ≤ -32768) ∧ (6 < 16 ∧ -(2 : Int) ^ 5 ≤ -32 ∧ (-32 : Int) < 2 ^ 5 ∧ (2 : Int) ^ 5 - 1 ≤ 32) ∧
      ((31 : Int) < 2 ^ 5 ∧ (2 : Int) ^ 5 - 1 ≤ 31) ∧ (30 : Int) < (2 : Int) ^ 5 - 1 := by decide

/-- Also the hypotheses of the last clause of FinishScalesToHalfFloatRange. -/
theorem witness_PipelineValuesStayInRange :
    fields0.wf 0 = true ∧ fields13.wf 13 = true ∧ (modeDesc 0).twoRegions = true ∧ (0 : Fin 14) ≠ 13 := by decide +kernel

theorem witness_InterpolationIsFloorBetweenTheEnds : 0 ≤ 64 ∧ 64 ≤ 64 := by decide

theorem witness_FinishScalesToHalfFloatRange :
    ((0 : Int) ≤ 65535 ∧ (65535 : Int) ≤ 65535) ∧ (-32768 : Int) ≤ 32767 ∧ (-(-1 : Int)) * 31 / 32 = 0 ∧
      (-(-2 : Int)) * 31 / 32 ≠ 0 := by decide

/-- Also the hypotheses of MortonIndexCommandWritesResult, each side at its boundary. -/
theorem witness_MortonIndexInterleavesBits :
    65535 ≤ 65535 ∧ 15 < 16 ∧ { State.reset with xcoord := 65535 }.xcoord.toNat ≤ 65535 ∧
      65535 < { State.reset with xcoord := 65536 }.xcoord.toNat ∧ 65535 < { State.reset with ycoord := 65536 }.ycoord.toNat := by
  decide

/-- Also MortonRoundTripKeepsReachableElements: a 3x2 image of two-byte elements. -/
theorem witness_MortonSwizzlesPlaceElements :
    let s := image 3 2 2 0 (.bytes (List.replicate 14 7#8))
    ByteSource s (List.replicate 14 7#8) ∧ DimsLegal s ∧ 1 ≤ s.e ∧ 14 % s.e = 0 ∧ s.w * s.hgt * s.e ≤ 14 := by
  exact ⟨⟨rfl, rfl⟩, by unfold DimsLegal; decide +kernel, by decide, by decide, by decide⟩

/-- The smallest and a larger square. -/
theorem witness_MortonSquaresRoundTrip :
    (let s := image 1 1 1 0 (.bytes [7#8])
     ByteSource s [7#8] ∧ s.w = 2 ^ 0 ∧ s.hgt = 2 ^ 0 ∧ 1 ≤ s.e ∧ [7#8].length = s.w * s.hgt * s.e) ∧
    (let s := image 4 4 2 0 (.bytes (List.replicate 32 7#8))
     ByteSource s (List.replicate 32 7#8) ∧ s.w = 2 ^ 2 ∧ s.hgt = 2 ^ 2 ∧ 1 ≤ s.e ∧ 32 = s.w * s.hgt * s.e) :=
  ⟨⟨⟨rfl, rfl⟩, by decide, by decide, by decide, by decide⟩, ⟨⟨rfl, rfl⟩, by decide, by decide, by decide, by decide⟩⟩

/-- Also PaletteReorderIsAnInvolution. -/
theorem witness_PaletteCommandsSwapBits3And4 :
    WordSource (holding (.words (List.replicate 32 1#32))) (List.replicate 32 1#32) ∧ List.replicate 32 1#32 ≠ [] ∧
      (List.replicate 32 1#32).length % 32 = 0 := ⟨⟨rfl, rfl⟩, by decide, by decide⟩

/-- Also SubaByteSwizzlesPlacePixels. -/
theorem witness_Ps2ByteSwizzlesPlacePixels :
    let s := image 2 1 0 0 (.bytes [1#8, 2#8])
    ByteSource s [1#8, 2#8] ∧ DimsLegal s ∧ s.w * s.hgt ≤ [1#8, 2#8].length :=
  ⟨⟨rfl, rfl⟩, by unfold DimsLegal; decide +kernel, by decide⟩

theorem witness_Ps2WordSwizzlesPlacePixels :
    let s := image 2 1 0 0 (.words [1#32, 2#32, 3#32])
    WordSource s [1#32, 2#32, 3#32] ∧ DimsLegal s ∧ s.w * s.hgt ≤ [1#32, 2#32, 3#32].length :=
  ⟨⟨rfl, rfl⟩, by unfold DimsLegal; decide +kernel, by decide⟩

theorem witness_Ps2IndexPermutesTilePages : 48 % 16 = 0 ∧ 12 % 4 = 0 := by decide

theorem witness_Ps2SwizzlesRoundTrip :
    (let s := image 16 4 0 0 (.bytes (List.replicate 64 1#8))
     ByteSource s (List.replicate 64 1#8) ∧ DimsLegal s ∧ s.ps2Index = .standard ∧ s.w % 16 = 0 ∧ s.hgt % 4 = 0 ∧
       64 = s.w * s.hgt) ∧
    (let s := image 1 1 0 0 (.words [1#32])
     WordSource s [1#32] ∧ DimsLegal s ∧ PermutesBelow (s.w * s.hgt) (fun p => ps2IdxOf s.ps2Index s.w (p % s.w) (p / s.w)) ∧
       1 = s.w * s.hgt) := by
  refine ⟨⟨⟨rfl, rfl⟩, by unfold DimsLegal; decide +kernel, rfl, by decide, by decide, by decide⟩,
    ⟨⟨rfl, rfl⟩, by unfold DimsLegal; decide +kernel, ⟨?_, ?_, ?_⟩, by decide⟩⟩
  · decide +kernel
  · intro p q hp hq _
    have hp : p < 1 := hp
    have hq : q < 1 := hq
    omega
  · exact fun q hq => ⟨0, by decide, by revert q; decide +kernel⟩

theorem witness_NibbleSwizzlesPlacePixels :
    let s := image 3 1 0 0 (.bytes [1#8, 2#8])
    ByteSource s [1#8, 2#8] ∧ DimsLegal s ∧ s.w * s.hgt ≤ 2 * [1#8, 2#8].length :=
  ⟨⟨rfl, rfl⟩, by unfold DimsLegal; decide +kernel, by decide⟩

theorem witness_SubaPairSwizzlesPlacePixels :
    let s := image 1 1 0 0 (.bytes [1#8, 2#8])
    ByteSource s [1#8, 2#8] ∧ DimsLegal s ∧ [1#8, 2#8].length % 2 = 0 ∧ 2 * (s.w * s.hgt) ≤ [1#8, 2#8].length :=
  ⟨⟨rfl, rfl⟩, by unfold DimsLegal; decide +kernel, by decide, by decide⟩

/-- Two pixels of the second page of a 256x128 image, and of a 256x130 image, which is off the grid. -/
theorem witness_Ea4MapObeysItsLaws :
    (256 % 128 = 0 ∧ 128 % 128 = 0 ∧ 255 < 256 ∧ 127 < 128) ∧
      (255 / 128 + 1) * 128 ≤ 256 ∧ (127 / 128 + 1) * 128 ≤ 130 ∧ 128 / 128 = 255 / 128 ∧ 0 / 128 = 127 / 128 := by decide

/-- Pages of each kind, on and off the grid, and an odd number of pixels. -/
theorem witness_SubaMapsObeyTheirLaws :
    (64 = if Config.SubaKind.suba16 = .suba16 then 64 else 128) ∧ (192 % 64 = 0 ∧ 64 % 64 = 0) ∧
      ((2 + 1) * 64 ≤ 200 ∧ (0 + 1) * 64 ≤ 70 ∧ 128 / 64 = 2 ∧ 63 / 64 = 0) ∧
      (128 = if Config.SubaKind.suba4 = .suba16 then 64 else 128) ∧ (0 + 1) * 128 ≤ 129 ∧ 129 * 129 % 2 = 1 := by decide

theorem witness_PagedSwizzlesRoundTrip :
    (let s := image 128 128 0 0 (.bytes (List.replicate 8192 1#8))
     ByteSource s (List.replicate 8192 1#8) ∧ DimsLegal s ∧ s.w % 128 = 0 ∧ s.hgt % 128 = 0 ∧
       2 * (List.replicate 8192 1#8).length = s.w * s.hgt) ∧
    (let s := image 128 128 0 0 (.bytes (List.replicate 16384 1#8))
     ByteSource s (List.replicate 16384 1#8) ∧ DimsLegal s ∧ (List.replicate 16384 1#8).length = s.w * s.hgt) ∧
    (let s := image 64 64 0 0 (.bytes (List.replicate 8192 1#8))
     ByteSource s (List.replicate 8192 1#8) ∧ DimsLegal s ∧ s.w % 64 = 0 ∧ s.hgt % 64 = 0 ∧
       (List.replicate 8192 1#8).length = 2 * (s.w * s.hgt)) := by
  refine ⟨⟨⟨rfl, rfl⟩, ?_, by decide, by decide, ?_⟩, ⟨⟨rfl, rfl⟩, ?_, ?_⟩, ⟨⟨rfl, rfl⟩, ?_, by decide, by decide, ?_⟩⟩
  all_goals first
    | (rw [List.length_replicate]; decide)
    | (unfold DimsLegal State.w State.hgt; decide)

/-- Also the shape of PspIndexPermutesItsDomains and PspSwizzlesRoundTrip: each of the three domains. -/
theorem witness_PspSwizzlesPlaceBytes :
    (let s := image 32 8 0 8 (.bytes (List.replicate 256 1#8))
     ByteSource s (List.replicate 256 1#8) ∧ DimsLegal s ∧ s.bits ∈ [4, 8, 16, 32] ∧ (s.w * s.bits / 8) % 16 = 0 ∧
       s.hgt % 8 = 0 ∧ 256 = s.w * s.bits / 8 * s.hgt) ∧
    (let s := image 4 3 0 32 (.bytes (List.replicate 48 1#8))
     ByteSource s (List.replicate 48 1#8) ∧ DimsLegal s ∧ s.bits ∈ [4, 8, 16, 32] ∧ s.w * s.bits / 8 = 16 ∧
       48 = s.w * s.bits / 8 * s.hgt) ∧
    (let s := image 3 1 0 16 (.bytes (List.replicate 6 1#8))
     ByteSource s (List.replicate 6 1#8) ∧ DimsLegal s ∧ s.bits ∈ [4, 8, 16, 32] ∧ s.hgt = 1 ∧ s.w * s.bits / 8 ≤ 16 ∧
       6 = s.w * s.bits / 8 * s.hgt) := by
  refine ⟨⟨⟨rfl, rfl⟩, ?_, ?_⟩, ⟨⟨rfl, rfl⟩, ?_, ?_⟩, ⟨⟨rfl, rfl⟩, ?_, ?_⟩⟩
  all_goals first
    | decide +kernel
    | (unfold DimsLegal; decide +kernel)

theorem witness_PspIndexPermutesItsDomains :
    (48 % 16 = 0 ∧ 8 % 8 = 0) ∧ (16 = 16 ∧ 3 % 8 ≠ 0) ∧ (1 = 1 ∧ 7 ≤ 16) := by decide

theorem witness_StepKeepsTheInvariant :
    ∃ t, Inv (queued [.setReg 0 0x00000010#32]) ∧ step (queued [.setReg 0 0x00000010#32]) = .next t :=
  ⟨_, ⟨by decide, by decide, by decide +kernel⟩, rfl⟩

end Sys2Proof.Tests
end

section
/-! SUPPORT. Sign extension (00_scope.md R9) as the signed value of a bit vector. -/

namespace Sys2Proof.Machine

open Sys2Proof

/-- `sext_n(v)` is the signed value of the `n`-bit vector that `v` is cut to. -/
theorem sext_eq_toInt_ofInt (n : Nat) (v : Int) : sext n v = (BitVec.ofInt n v).toInt := by
  have hnonneg : 0 ≤ v % (2 : Int) ^ n := Int.emod_nonneg v (by positivity)
  rw [sext, zext, BitVec.toInt_eq_msb_cond, BitVec.msb_eq_getLsbD_last, ← BitVec.testBit_toNat, BitVec.toNat_ofInt]
  push_cast
  rw [Int.toNat_of_nonneg hnonneg]

/-- Sign extension is the balanced remainder modulo `2^n`. -/
theorem sext_eq_bmod (n : Nat) (v : Int) : sext n v = v.bmod (2 ^ n) := by
  rw [sext_eq_toInt_ofInt, BitVec.toInt_ofInt]

/-- Sign extension keeps the residue modulo `2^n`. -/
theorem sext_emod (n : Nat) (v : Int) : sext n v % (2 : Int) ^ n = v % (2 : Int) ^ n := by
  have h := Int.bmod_emod (x := v) (m := 2 ^ n)
  rw [sext_eq_bmod]
  exact_mod_cast h

theorem le_sext (n : Nat) (v : Int) : -(2 : Int) ^ (n - 1) ≤ sext n v :=
  sext_eq_toInt_ofInt n v ▸ BitVec.le_toInt _

theorem sext_lt (n : Nat) (v : Int) : sext n v < (2 : Int) ^ (n - 1) :=
  sext_eq_toInt_ofInt n v ▸ BitVec.toInt_lt

end Sys2Proof.Machine
end

section
/-! SUPPORT. The last writer of a destination (20_memory.md R58, R61), read off the moves as a set; and the elements a swizzle
and an unswizzle over single elements leave. -/

namespace Sys2Proof.Machine

open Sys2Proof

/-! ### The last writer -/

/-- The last writer is a move to its destination from inside the source. -/
theorem mem_of_lastWriter_eq_some {moves : List (Nat × Nat)} {n d p : Nat} (h : lastWriter moves n d = some p) :
    (d, p) ∈ moves ∧ p < n := by
  obtain ⟨⟨a, q⟩, hlast, rfl⟩ := Option.map_eq_some_iff.1 h
  have hmem := List.mem_filter.1 (List.mem_of_getLast? hlast)
  obtain ⟨rfl, hq⟩ : a = d ∧ q < n := by simpa using hmem.2
  exact ⟨hmem.1, hq⟩

/-- Nothing writes a destination that no move reaches from inside the source. -/
theorem lastWriter_eq_none_iff (moves : List (Nat × Nat)) (n d : Nat) :
    lastWriter moves n d = none ↔ ∀ p, (d, p) ∈ moves → n ≤ p := by
  simp only [lastWriter, Option.map_eq_none_iff, List.getLast?_eq_none_iff, List.filter_eq_nil_iff, Prod.forall]
  constructor
  · intro h p hp
    simpa using h d p hp
  · rintro h a p hap
    by_cases had : a = d
    · subst had
      simpa using h p hap
    · simp [had]

/-- Where one source is sent to a destination, it is the last writer, or is skipped as outside the source. -/
theorem lastWriter_of_unique {moves : List (Nat × Nat)} {d p : Nat} (n : Nat) (hmem : (d, p) ∈ moves)
    (huniq : ∀ q, (d, q) ∈ moves → q = p) : lastWriter moves n d = if p < n then some p else none := by
  cases hw : lastWriter moves n d with
  | none => rw [if_neg (Nat.not_lt.2 ((lastWriter_eq_none_iff moves n d).1 hw p hmem))]
  | some q =>
    obtain ⟨hq, hlt⟩ := mem_of_lastWriter_eq_some hw
    obtain rfl := huniq q hq
    rw [if_pos hlt]

/-! ### The moves of a swizzle and of an unswizzle -/

theorem mem_grid (w h x y : Nat) : (x, y) ∈ grid w h ↔ x < w ∧ y < h := by
  simp [grid, and_comm]

/-- The moves of an unswizzle: pixel (x, y) takes the element its index function names. -/
theorem mem_unswizzleMoves (ix : Nat → Nat → Nat) (w h d p : Nat) :
    (d, p) ∈ unswizzleMoves ix w h ↔ ∃ x y, x < w ∧ y < h ∧ d = y * w + x ∧ p = ix x y := by
  simp only [unswizzleMoves, List.mem_map, Prod.exists, mem_grid, Prod.mk.injEq, and_assoc, @eq_comm _ d, @eq_comm _ p]

/-- Two pixels of an image with the same linear index are one pixel. -/
theorem row_major_inj {w x x' y y' : Nat} (hx : x < w) (hx' : x' < w) (heq : y * w + x = y' * w + x') :
    x = x' ∧ y = y' :=
  ⟨by rw [← row_major_mod y hx, heq, row_major_mod y' hx'], by rw [← row_major_div y hx, heq, row_major_div y' hx']⟩

theorem row_major_lt {w h x y : Nat} (hx : x < w) (hy : y < h) : y * w + x < w * h := by
  calc y * w + x < y * w + w := by omega
    _ = w * (y + 1) := by ring
    _ ≤ w * h := Nat.mul_le_mul_left w hy

/-- An unswizzle fills pixel (x, y) from the element its index function names, where the source has one. -/
theorem lastWriter_unswizzleMoves (ix : Nat → Nat → Nat) {w h x y : Nat} (n : Nat) (hx : x < w) (hy : y < h) :
    lastWriter (unswizzleMoves ix w h) n (y * w + x) = if ix x y < n then some (ix x y) else none := by
  refine lastWriter_of_unique n ((mem_unswizzleMoves ..).2 ⟨x, y, hx, hy, rfl, rfl⟩) fun q hq => ?_
  obtain ⟨x', y', hx', -, heq, rfl⟩ := (mem_unswizzleMoves ..).1 hq
  obtain ⟨rfl, rfl⟩ := row_major_inj hx hx' heq
  rfl

/-- An unswizzle writes nothing after the image. -/
theorem lastWriter_unswizzleMoves_padding (ix : Nat → Nat → Nat) {w h d : Nat} (n : Nat) (hd : w * h ≤ d) :
    lastWriter (unswizzleMoves ix w h) n d = none := by
  refine (lastWriter_eq_none_iff ..).2 fun p hp => ?_
  obtain ⟨x, y, hx, hy, rfl, -⟩ := (mem_unswizzleMoves ..).1 hp
  exact absurd (row_major_lt hx hy) (Nat.not_lt.2 hd)

/-! ### What the loops over single elements leave -/

/-- A swizzle over single elements leaves what its moves place. -/
theorem transfer_places {α : Type} (fill : α) (moves : List (Nat × Nat)) (src : List α) :
    PlacesElements fill moves src (transfer fill 1 moves src) :=
  ⟨length_transfer .., fun d hd => getElem?_transfer_one fill moves src d hd⟩

/-- What an unswizzle of a `w` x `h` image by the index function `ix` leaves: pixel (x, y) holds element `ix x y`, or
FILL where the source has none, and FILL follows the image (20_memory.md R61, R63). -/
def GathersPixels {α : Type} (fill : α) (ix : Nat → Nat → Nat) (w h : Nat) (src out : List α) : Prop :=
  out.length = src.length ∧
    (∀ x y, x < w → y < h → out[y * w + x]? = if ix x y < src.length then src[ix x y]? else some fill) ∧
    (∀ k, k < src.length → w * h ≤ k → out[k]? = some fill)

/-- An unswizzle whose image fits the source gathers its pixels by the index function, whatever that is. -/
theorem transfer_unswizzleMoves_gathers {α : Type} (fill : α) (ix : Nat → Nat → Nat) (w h : Nat) (src : List α)
    (hsize : w * h ≤ src.length) :
    GathersPixels fill ix w h src (transfer fill 1 (unswizzleMoves ix w h) src) := by
  refine ⟨length_transfer .., fun x y hx hy => ?_, fun k hk hpad => ?_⟩
  · have hinside : y * w + x < src.length := (row_major_lt hx hy).trans_le hsize
    rw [getElem?_transfer_one fill _ src _ hinside, lastWriter_unswizzleMoves ix _ hx hy]
    split_ifs <;> rfl
  · rw [getElem?_transfer_one fill _ src k hk, lastWriter_unswizzleMoves_padding ix _ hpad]

end Sys2Proof.Machine
end

section
/-! SUPPORT. When a byte command or a word command completes (60_exceptions.md R202), and the PS2 8bpp and 32bpp commands
(43_ps2.md R154, R155, R161, R162). -/

namespace Sys2Proof.Machine

open Sys2Proof

/-! ### Completion -/

/-- A byte command whose checks pass ends with DST what its function makes of SRC. -/
theorem endsWithBytes_of_byteCommand {i : Instr} {s : State} {bs : List Byte} {c : Option Reason}
    {f : List Byte → List Byte} {P : List Byte → Prop} (hexec : exec i s = .next (byteCommand c f s)) (hcheck : c = none)
    (hsrc : ByteSource s bs) (hP : P (f bs)) : EndsWithBytes i s P :=
  ⟨f bs, by rw [hexec, hcheck, byteCommand_done f s bs hsrc.1, statusDone_eq], hP⟩

/-- A word command whose checks pass ends with DST what its function makes of SRC. -/
theorem endsWithWords_of_wordCommand {i : Instr} {s : State} {ws : List Word} {c : Option Reason}
    {f : List Word → List Word} {P : List Word → Prop} (hexec : exec i s = .next (wordCommand c f s)) (hcheck : c = none)
    (hsrc : WordSource s ws) (hP : P (f ws)) : EndsWithWords i s P :=
  ⟨f ws, by rw [hexec, hcheck, wordCommand_done f s ws hsrc.1, statusDone_eq], hP⟩

/-! ### The checks -/

theorem dimsOk_iff (s : State) : dimsOk s = true ↔ DimsLegal s := by
  simp only [dimsOk, Bool.and_eq_true, decide_eq_true_eq, and_assoc]
  rfl

/-- A byte image of legal dimensions that fits SRC passes the checks (43_ps2.md R154, R166). -/
theorem bytePixelCheck_eq_none {s : State} {bs : List Byte} (hsrc : ByteSource s bs) (hdims : DimsLegal s)
    (hsize : s.w * s.hgt ≤ bs.length) : bytePixelCheck s = none := by
  obtain ⟨hbytes, haliased⟩ := hsrc
  simp [bytePixelCheck, firstRefusal_eq_none, hbytes, haliased, (dimsOk_iff s).2 hdims, hsize]

/-- A word image of legal dimensions that fits SRC passes the checks (43_ps2.md R161). -/
theorem wordPixelCheck_eq_none {s : State} {ws : List Word} (hsrc : WordSource s ws) (hdims : DimsLegal s)
    (hsize : s.w * s.hgt ≤ ws.length) : wordPixelCheck s = none := by
  obtain ⟨hwords, haliased⟩ := hsrc
  simp [wordPixelCheck, firstRefusal_eq_none, hwords, haliased, (dimsOk_iff s).2 hdims, hsize]

/-! ### The commands in terms of the configured PS2_IDX8 -/

theorem exec_ps2Swz8 (s : State) : exec .ps2Swz8 s =
    .next (byteCommand (bytePixelCheck s) (transfer 0 1 (swizzleMoves (ps2IdxOf s.ps2Index s.w) s.w s.hgt)) s) := rfl

theorem exec_ps2Unswz8 (s : State) : exec .ps2Unswz8 s =
    .next (byteCommand (bytePixelCheck s) (transfer 0 1 (unswizzleMoves (ps2IdxOf s.ps2Index s.w) s.w s.hgt)) s) := rfl

theorem exec_ps2Swz32 (s : State) : exec .ps2Swz32 s =
    .next (wordCommand (wordPixelCheck s) (transfer 0 1 (swizzleMoves (ps2IdxOf s.ps2Index s.w) s.w s.hgt)) s) := rfl

theorem exec_ps2Unswz32 (s : State) : exec .ps2Unswz32 s =
    .next (wordCommand (wordPixelCheck s) (transfer 0 1 (unswizzleMoves (ps2IdxOf s.ps2Index s.w) s.w s.hgt)) s) := rfl

end Sys2Proof.Machine
end

section
/-! The statements of the family of 00_scope.md, settled. -/

namespace Sys2Proof.Machine

open Sys2Proof

/-- Settles O32: sign extension is the signed value of a bit vector, whose range and residue are known. -/
theorem signExtensionIsTwosComplement : Obligations.SignExtensionIsTwosComplement := by
  intro n v _
  exact ⟨le_sext n v, sext_lt n v, Int.emod_eq_emod_iff_emod_sub_eq_zero.1 (sext_emod n v)⟩

/-- Settles O46: the checks pass, and the loops place and gather pixels whatever the index function is. -/
theorem ps2ByteSwizzlesPlacePixels : Obligations.Ps2ByteSwizzlesPlacePixels := by
  intro s bs hsrc hdims hsize
  have hcheck := bytePixelCheck_eq_none hsrc hdims hsize
  constructor
  · exact endsWithBytes_of_byteCommand (exec_ps2Swz8 s) hcheck hsrc (transfer_places ..)
  · exact endsWithBytes_of_byteCommand (exec_ps2Unswz8 s) hcheck hsrc
      (transfer_unswizzleMoves_gathers 0 _ s.w s.hgt bs hsize)

/-- Settles O47, as O46 over words. -/
theorem ps2WordSwizzlesPlacePixels : Obligations.Ps2WordSwizzlesPlacePixels := by
  intro s ws hsrc hdims hsize
  have hcheck := wordPixelCheck_eq_none hsrc hdims hsize
  constructor
  · exact endsWithWords_of_wordCommand (exec_ps2Swz32 s) hcheck hsrc (transfer_places ..)
  · exact endsWithWords_of_wordCommand (exec_ps2Unswz32 s) hcheck hsrc
      (transfer_unswizzleMoves_gathers 0 _ s.w s.hgt ws hsize)

end Sys2Proof.Machine
end

section
/-! SUPPORT. Every BC6H block parses (40_bitstream.md R100): its reads end by bit 128, so none of them overruns. -/

namespace Sys2Proof

/-! ### Each kind of read, and where it leaves the cursor -/

/-- A row of a legal width inside the block is read. -/
theorem fieldRow_read_eq_some (row : FieldRow) (b : Block) (cur : Nat) (hpos : 1 ≤ row.width) (hle : row.width ≤ 16)
    (hend : cur + row.width ≤ 128) : ∃ v, row.read b cur = some v := by
  unfold FieldRow.read readBitsR
  rw [readBits_eq_some b cur row.width hpos hle hend]
  split <;> exact ⟨_, rfl⟩

/-- The endpoint reads advance the cursor by the sum of their widths (41_bc6h.md R113). -/
theorem readRows_eq_some (b : Block) (rows : List FieldRow) (cur : Nat) (ep : Rgb (Quad Nat))
    (hwidth : ∀ row ∈ rows, 1 ≤ row.width ∧ row.width ≤ 16) (hend : cur + (rows.map FieldRow.width).sum ≤ 128) :
    ∃ ep', readRows b rows cur ep = some (ep', cur + (rows.map FieldRow.width).sum) := by
  induction rows generalizing cur ep with
  | nil => exact ⟨ep, rfl⟩
  | cons row rows ih =>
    obtain ⟨⟨hpos, hle⟩, hrest⟩ := List.forall_mem_cons.1 hwidth
    rw [List.map_cons, List.sum_cons] at hend ⊢
    obtain ⟨v, hv⟩ := fieldRow_read_eq_some row b cur hpos hle (by omega)
    rw [readRows, hv, ← Nat.add_assoc]
    exact ih (cur + row.width) (row.orInto v ep) hrest (by omega)

/-- The index reads advance the cursor by the sum of their widths (30_encoding.md R78). -/
theorem readIndices_eq_some (b : Block) (ns : List Nat) (cur : Nat) (hwidth : ∀ n ∈ ns, 1 ≤ n ∧ n ≤ 16)
    (hend : cur + ns.sum ≤ 128) : ∃ vs, readIndices b ns cur = some (vs, cur + ns.sum) := by
  induction ns generalizing cur with
  | nil => exact ⟨[], rfl⟩
  | cons n ns ih =>
    obtain ⟨⟨hpos, hle⟩, hrest⟩ := List.forall_mem_cons.1 hwidth
    rw [List.sum_cons] at hend ⊢
    obtain ⟨vs, hvs⟩ := ih (cur + n) hrest (by omega)
    rw [readIndices, readBits_eq_some b cur n hpos hle (by omega), hvs, Nat.add_assoc]
    exact ⟨_, rfl⟩

/-- The partition read advances the cursor by 5 in the two-region modes, by 0 in the others (41_bc6h.md R114). -/
theorem readPartition_eq_some (b : Block) (m : Fin 14) (cur : Nat) (hend : cur + 5 ≤ 128) :
    ∃ part, readPartition b m cur = some (part, cur + if (modeDesc m).twoRegions then 5 else 0) := by
  unfold readPartition
  rw [readBits_eq_some b cur 5 (by omega) (by omega) hend]
  split <;> exact ⟨_, rfl⟩

/-- The mode code is 2 bits long where it is 0 or 1, else 5 (30_encoding.md R71). -/
theorem readModeCode_eq_some (b : Block) : ∃ code, readModeCode b = some (code, if code < 2 then 2 else 5) := by
  unfold readModeCode
  rw [readBits_eq_some b 0 2 (by omega) (by omega) (by omega), readBits_eq_some b 2 3 (by omega) (by omega) (by omega)]
  generalize (b.toNat >>> 0) % 2 ^ 2 = low
  generalize (b.toNat >>> 2) % 2 ^ 3 = high
  by_cases hshort : low < 2
  · exact ⟨low, by simp [hshort]⟩
  · have hlong : ¬ low ||| high <<< 2 < 2 := fun h => hshort (Nat.left_le_or.trans_lt h)
    exact ⟨low ||| high <<< 2, by simp only [if_neg hshort, if_neg hlong]⟩

/-! ### The widths of a block -/

/-- MODE_TABLE gives every mode code its length (30_encoding.md R71, R72). -/
theorem codeLen_of_modeOfCode {code : Nat} {m : Fin 14} (h : modeOfCode code = some m) :
    (modeDesc m).codeLen = if code < 2 then 2 else 5 := by
  unfold modeOfCode at h
  split at h <;> cases h <;> rfl

/-- Every row of FIELD_LAYOUT has a width the bit reader admits (30_encoding.md R77, 40_bitstream.md R100). -/
theorem layout_width_legal : ∀ m, ∀ row ∈ layout m, 1 ≤ row.width ∧ row.width ≤ 16 := by decide

/-- The header of a block is 82 bits long in the two-region modes and 65 in the one-region modes (30_encoding.md R73). -/
theorem header_width (m : Fin 14) :
    (modeDesc m).codeLen + ((layout m).map FieldRow.width).sum + (if (modeDesc m).twoRegions then 5 else 0) =
      if (modeDesc m).twoRegions then 82 else 65 := by
  revert m
  decide

/-- Every index width is one the bit reader admits. -/
theorem indexWidths_legal (m : Fin 14) (p : BitVec 5) : ∀ n ∈ indexWidths m p, 1 ≤ n ∧ n ≤ 16 := by
  simp only [indexWidths, List.forall_mem_map, indexWidth]
  intro k _
  split_ifs <;> omega

/-- The pixel of subset 1 with the shorter index is 2, 8 or 15 (41_bc6h.md R121). -/
theorem fixupOf_cases : ∀ p, fixupOf p = 2 ∨ fixupOf p = 8 ∨ fixupOf p = 15 := by decide

/-- The indices take 46 bits in the two-region modes, where pixel 0 and the fix-up pixel have 2 bits and the others 3, and 63
in the one-region modes, where pixel 0 has 3 and the others 4 (30_encoding.md R78). -/
theorem sum_indexWidths (m : Fin 14) (p : BitVec 5) :
    (indexWidths m p).sum = if (modeDesc m).twoRegions then 46 else 63 := by
  unfold indexWidths indexWidth
  cases (modeDesc m).twoRegions with
  | false => rfl
  | true => obtain hfix | hfix | hfix := fixupOf_cases p <;> rw [hfix] <;> rfl

/-- Mode code, endpoint fields, partition number and indices fill the 128 bits of a block (30_encoding.md R70). -/
theorem block_width (m : Fin 14) (p : BitVec 5) :
    (modeDesc m).codeLen + ((layout m).map FieldRow.width).sum + (if (modeDesc m).twoRegions then 5 else 0) +
      (indexWidths m p).sum = 128 := by
  rw [header_width, sum_indexWidths]
  split <;> rfl

/-- The endpoint fields leave room for a partition number. -/
theorem endpoints_end_le (m : Fin 14) :
    (modeDesc m).codeLen + ((layout m).map FieldRow.width).sum + 5 ≤ 128 := by
  have hheader := header_width m
  split at hheader <;> omega

/-! ### The block -/

/-- The reads of a block of a mode, from the end of its mode code, end at bit 128 (10_state.md R26). -/
theorem readFields_eq_some (b : Block) (m : Fin 14) : ∃ f, readFields b m (modeDesc m).codeLen = some (f, 128) := by
  have hroom := endpoints_end_le m
  obtain ⟨ep, hep⟩ := readRows_eq_some b (layout m) (modeDesc m).codeLen (Rgb.all (Quad.all 0)) (layout_width_legal m)
    (by omega)
  obtain ⟨part, hpart⟩ := readPartition_eq_some b m _ hroom
  have hwidth := block_width m part
  obtain ⟨idx, hidx⟩ := readIndices_eq_some b (indexWidths m part) _ (indexWidths_legal m part) hwidth.le
  exact ⟨⟨ep, part, idx⟩, by simp only [readFields, hep, hpart, hidx, hwidth]⟩

/-- No block overruns: every block parses (40_bitstream.md R100). -/
theorem parseBlock_eq_some (b : Block) : ∃ p, parseBlock b = some p := by
  obtain ⟨code, hcode⟩ := readModeCode_eq_some b
  cases hmode : modeOfCode code with
  | none => exact ⟨_, by simp only [parseBlock, hcode, hmode]; rfl⟩
  | some m =>
    obtain ⟨f, hf⟩ := readFields_eq_some b m
    rw [← codeLen_of_modeOfCode hmode] at hcode
    exact ⟨⟨BitVec.ofNat 5 code, some m, f, 128⟩, by simp only [parseBlock, hcode, hmode, hf]⟩

end Sys2Proof
end

section
/-! SUPPORT. What a command does, said once (60_exceptions.md R202): the checks it makes, what its body leaves, and the three
forms a command takes: a BC6H command, MORTON_INDEX, or a transform of SRC into DST. -/

namespace Sys2Proof.Machine

open Sys2Proof

/-! ### The checks -/

/-- The checks a command makes; none for the rows of the opcode table that are no commands. -/
def commandCheck : Instr → State → Option Reason
  | .bc6hDec _, s | .bc6hDecF _, s => bc6hCheck s
  | .mortonIndex, s => mortonIndexCheck s
  | .mortonSwz, s | .mortonUnswz, s => mortonCheck s
  | .palStripe, s | .palUnstripe, s => paletteCheck s
  | .ps2Swz8, s | .ps2Unswz8, s | .subaSwz8, s | .subaUnswz8, s => bytePixelCheck s
  | .ps2Swz32, s | .ps2Unswz32, s => wordPixelCheck s
  | .ps2Swz4, s | .ps2Unswz4, s | .subaSwz4, s | .subaUnswz4, s => nibblePixelCheck s
  | .subaSwz16, s | .subaUnswz16, s => pairPixelCheck s
  | .pspSwz, s | .pspUnswz, s => pspCheck s
  | _, _ => none

/-- The test of RF_ALIAS is the meeting of SRC and DST, for a command that has buffers (20_memory.md R62). -/
theorem overlap_iff_sharesElement {i : Instr} (hbuffers : i ≠ .mortonIndex) (s : State) :
    s.mem.overlap = true ↔ SharesElement i s := by
  simp [Memory.overlap, SharesElement, hbuffers]

/-- The shape an image command asks for: legal dimensions, the kind of SRC, and a size. -/
theorem imageShape_iff (s : State) (kind : Bool) (size : Prop) [Decidable size] :
    (dimsOk s && kind && decide size) = true ↔ DimsLegal s ∧ kind = true ∧ size := by
  simp [dimsOk_iff, and_assoc]

/-- The same with a condition on the length of SRC between the kind and the size. -/
theorem imageShape_length_iff (s : State) (kind : Bool) (length size : Prop) [Decidable length] [Decidable size] :
    (dimsOk s && kind && decide length && decide size) = true ↔ DimsLegal s ∧ kind = true ∧ length ∧ size := by
  simp [dimsOk_iff, and_assoc]

/-- Whole 4-bit pixels fit SRC where their bytes, an odd pixel's rounded up, do (20_memory.md R56). -/
theorem nibbles_fit_iff (pixels bytes : Nat) : pixels ≤ 2 * bytes ↔ (pixels + 1) / 2 ≤ bytes := by omega

/-- A command makes the checks of 60_exceptions.md R201 in the order of R202. -/
theorem commandCheck_eq_firstRefusal {i : Instr} (hcmd : i.format = .cmd) (s : State) :
    ∃ paramOk shapeOk overlap, commandCheck i s = firstRefusal paramOk shapeOk overlap ∧
      (paramOk = true ↔ ParamLegal i s) ∧ (shapeOk = true ↔ ShapeLegal i s) ∧ (overlap = true ↔ SharesElement i s) := by
  cases i
  case bc6hDec | bc6hDecF =>
    exact ⟨_, _, _, bc6hCheck.eq_def s, decide_eq_true_iff, Iff.rfl, overlap_iff_sharesElement (by simp) s⟩
  case mortonIndex =>
    exact ⟨_, _, _, mortonIndexCheck.eq_def s, by simp [mortonCoordsOk, ParamLegal], iff_of_true rfl trivial,
      by simp [SharesElement]⟩
  case mortonSwz | mortonUnswz =>
    exact ⟨_, _, _, mortonCheck.eq_def s, decide_eq_true_iff.trans Nat.one_le_iff_ne_zero,
      (imageShape_length_iff ..).trans (by rw [← Nat.dvd_iff_mod_eq_zero]; rfl), overlap_iff_sharesElement (by simp) s⟩
  case palStripe | palUnstripe =>
    exact ⟨_, _, _, paletteCheck.eq_def s, by simp [ParamLegal, Nat.dvd_iff_mod_eq_zero], Iff.rfl,
      overlap_iff_sharesElement (by simp) s⟩
  case ps2Swz8 | ps2Unswz8 | subaSwz8 | subaUnswz8 =>
    exact ⟨_, _, _, bytePixelCheck.eq_def s, iff_of_true rfl trivial, imageShape_iff ..,
      overlap_iff_sharesElement (by simp) s⟩
  case ps2Swz32 | ps2Unswz32 =>
    exact ⟨_, _, _, wordPixelCheck.eq_def s, iff_of_true rfl trivial, imageShape_iff ..,
      overlap_iff_sharesElement (by simp) s⟩
  case ps2Swz4 | ps2Unswz4 | subaSwz4 | subaUnswz4 =>
    exact ⟨_, _, _, nibblePixelCheck.eq_def s, iff_of_true rfl trivial,
      (imageShape_iff ..).trans (by rw [nibbles_fit_iff]; rfl), overlap_iff_sharesElement (by simp) s⟩
  case subaSwz16 | subaUnswz16 =>
    exact ⟨_, _, _, pairPixelCheck.eq_def s, iff_of_true rfl trivial,
      (imageShape_length_iff ..).trans (by rw [← Nat.dvd_iff_mod_eq_zero]; rfl), overlap_iff_sharesElement (by simp) s⟩
  case pspSwz | pspUnswz =>
    exact ⟨_, _, _, pspCheck.eq_def s, by simp [ParamLegal, State.bits, or_assoc], imageShape_iff ..,
      overlap_iff_sharesElement (by simp) s⟩
  all_goals exact nomatch hcmd

/-- The checks of a command all pass exactly where its operands and shape are legal and its buffers share nothing. -/
theorem commandCheck_eq_none_iff {i : Instr} (hcmd : i.format = .cmd) (s : State) :
    commandCheck i s = none ↔ ParamLegal i s ∧ ShapeLegal i s ∧ ¬ SharesElement i s := by
  obtain ⟨paramOk, shapeOk, overlap, hcheck, hparam, hshape, hoverlap⟩ := commandCheck_eq_firstRefusal hcmd s
  rw [hcheck, firstRefusal_eq_none, hparam, hshape, ← hoverlap, Bool.not_eq_true]

/-! ### What a command reads -/

/-- The states no command tells apart: they agree but for STATUS, RESULT, DST and the working registers. -/
def SameInputs (s t : State) : Prop :=
  t = { s with status := t.status, result := t.result, mem := s.mem.setDst t.mem.dst, work := t.work }

theorem sameInputs_iff (s t : State) :
    SameInputs s t ↔ SameOperands s t ∧ t.mem.src = s.mem.src ∧ t.mem.aliased = s.mem.aliased := by
  constructor
  · intro h
    rw [h]
    exact ⟨⟨rfl, rfl, rfl, rfl, rfl, rfl, rfl, rfl, rfl⟩, rfl, rfl⟩
  · obtain ⟨_, _, _, _, _, _, _, _, _, ⟨_, _, _⟩, _, _, _⟩ := t
    rintro ⟨⟨rfl, rfl, rfl, rfl, rfl, rfl, rfl, rfl, rfl⟩, rfl, rfl⟩
    rfl

theorem sameInputs_setWork (s : State) (k : Work) : SameInputs s { s with work := k } := rfl

/-- `g` reads no more of a state than a command may read. -/
def ReadsInputs {α : Type} (g : State → α) : Prop := ∀ s t, SameInputs s t → g t = g s

theorem commandCheck_readsInputs (i : Instr) : ReadsInputs (commandCheck i) := by
  intro s t h
  rw [h]
  cases i <;> rfl

/-! ### What a command leaves -/

/-- Running a block and then writing DST and STATUS changes nothing else but the working registers. -/
theorem complete_setDst_runBlock (signed : Bool) (p : ParsedBlock) (dst : Buffer) (s : State) :
    complete ((runBlock signed p s).setDst dst) =
      { s with status := statusDone, mem := s.mem.setDst dst, work := (runBlock signed p s).work } := by
  unfold runBlock
  cases p.mode <;> rfl

/-- Init clears the working registers, so the block alone decides what they hold after it (70_reset_and_hazards.md R231). -/
theorem runBlock_initWork_work (signed : Bool) (p : ParsedBlock) (b : Block) (s s' : State) :
    (runBlock signed p (initWork b s)).work = (runBlock signed p (initWork b s')).work := by
  unfold runBlock
  cases p.mode <;> rfl

/-- A BC6H body ends DONE and changes STATUS, DST and the working registers alone, to what the bytes of SRC give. -/
theorem bc6hBody_eq (signed : Bool) (f : Rgb Byte → Rgb Byte) (bs : List Byte) :
    ∃ dst work, ∀ s : State, s.mem.src.asBytes = bs →
      bc6hBody signed f s = { s with status := statusDone, mem := s.mem.setDst dst, work := work } := by
  obtain ⟨p, hparse⟩ := parseBlock_eq_some (blockOfBytes bs)
  generalize hwork : (runBlock signed p (initWork (blockOfBytes bs) State.reset)).work = work
  refine ⟨.words ((pixelBytes work).map fun c => packArgb (f c)), work, fun s hsrc => ?_⟩
  simp only [bc6hBody, hsrc, hparse, complete_setDst_runBlock]
  rw [runBlock_initWork_work signed p _ s State.reset, hwork]
  rfl

theorem command_congr (c : Option Reason) {body body' : State → State} {s : State} (h : body s = body' s) :
    command c body s = command c body' s := by
  cases c with
  | none => exact h
  | some r => rfl

/-- Command `i` makes its checks, and where they pass it leaves what `effect` gives. -/
def CompletesWith (i : Instr) (effect : State → State) : Prop :=
  ∀ s, exec i s = .next (command (commandCheck i s) effect s)

theorem CompletesWith.cases {i : Instr} {effect : State → State} (hi : CompletesWith i effect) {s t : State}
    (ht : exec i s = .next t) :
    (∃ r, commandCheck i s = some r ∧ t = refuse r s) ∨ (commandCheck i s = none ∧ t = effect s) := by
  rw [hi s, Host.Outcome.next.injEq] at ht
  exact ht ▸ command_cases (commandCheck i s) effect s

/-- What a BC6H command writes to DST and to the working registers, as functions of what it reads. -/
theorem bc6hCommand_completesWith {i : Instr} {signed : Bool} {f : Rgb Byte → Rgb Byte}
    (hi : CompletesWith i (bc6hBody signed f)) :
    ∃ dst work, ReadsInputs dst ∧ ReadsInputs work ∧
      CompletesWith i fun s => { s with status := statusDone, mem := s.mem.setDst (dst s), work := work s } := by
  choose dst work hbody using bc6hBody_eq signed f
  refine ⟨fun s => dst s.mem.src.asBytes, fun s => work s.mem.src.asBytes, ?_, ?_, fun s => ?_⟩
  · intro s t h
    rw [h]
    rfl
  · intro s t h
    rw [h]
    rfl
  · exact (hi s).trans (congrArg Host.Outcome.next (command_congr _ (hbody _ s rfl)))

/-- What a command is: a BC6H command, which writes DST and the working registers; MORTON_INDEX, which writes RESULT; or a
transform, which writes DST. Each writes STATUS, and what it writes to DST and the working registers only its inputs decide. -/
theorem exec_command_cases {i : Instr} (hcmd : i.format = .cmd) :
    ((∃ signed, i = .bc6hDec signed ∨ i = .bc6hDecF signed) ∧ ∃ dst work, ReadsInputs dst ∧ ReadsInputs work ∧
      CompletesWith i fun s => { s with status := statusDone, mem := s.mem.setDst (dst s), work := work s }) ∨
    (i = .mortonIndex ∧
      CompletesWith i fun s => { s with status := statusDone, result := mortonWord s.xcoord s.ycoord }) ∨
    (i ≠ .mortonIndex ∧ ∃ dst, ReadsInputs dst ∧
      CompletesWith i fun s => { s with status := statusDone, mem := s.mem.setDst (dst s) }) := by
  cases i
  case bc6hDec signed => exact .inl ⟨⟨signed, .inl rfl⟩, bc6hCommand_completesWith fun _ => rfl⟩
  case bc6hDecF signed => exact .inl ⟨⟨signed, .inr rfl⟩, bc6hCommand_completesWith fun _ => rfl⟩
  case mortonIndex => exact .inr (.inl ⟨rfl, fun _ => rfl⟩)
  case readBits | readBitsR | bc6hMode0 | bc6hMode1 | bc6hMode2 | bc6hMode3 | bc6hMode4 | bc6hMode5 | bc6hMode6 | bc6hMode7
      | bc6hMode8 | bc6hMode9 | bc6hMode10 | bc6hMode11 | bc6hMode12 | bc6hMode13 | bc6hModeRsv => exact nomatch hcmd
  all_goals exact .inr (.inr ⟨by simp, _, fun s t h => by rw [h]; rfl, fun s => rfl⟩)

/-- A command that completes ends DONE, and leaves what a command may read as it was (10_state.md R23, 20_memory.md R59). -/
theorem exists_completesWith {i : Instr} (hcmd : i.format = .cmd) :
    ∃ effect, CompletesWith i effect ∧ ∀ s, (effect s).status = statusDone ∧ SameInputs s (effect s) := by
  obtain ⟨-, dst, work, -, -, hi⟩ | ⟨-, hi⟩ | ⟨-, dst, -, hi⟩ := exec_command_cases hcmd
  · exact ⟨_, hi, fun _ => ⟨rfl, rfl⟩⟩
  · exact ⟨_, hi, fun _ => ⟨rfl, rfl⟩⟩
  · exact ⟨_, hi, fun _ => ⟨rfl, rfl⟩⟩

/-- How a command ends: refused by its first failing check with nothing but STATUS changed, or DONE. -/
theorem exec_command_outcome {i : Instr} (hcmd : i.format = .cmd) (s : State) :
    ∃ t, exec i s = .next t ∧
      ((∃ r, commandCheck i s = some r ∧ t = refuse r s) ∨
        (commandCheck i s = none ∧ t.status = statusDone ∧ SameInputs s t)) := by
  obtain ⟨effect, hi, heffect⟩ := exists_completesWith hcmd
  refine ⟨_, hi s, (hi.cases (hi s)).imp_right fun ⟨hcheck, ht⟩ => ?_⟩
  rw [ht]
  exact ⟨hcheck, heffect s⟩

/-- No command changes what a command may read: its operands, its SRC and the host's list (60_exceptions.md R200). -/
theorem sameInputs_of_exec {i : Instr} (hcmd : i.format = .cmd) {s t : State} (ht : exec i s = .next t) :
    SameInputs s t := by
  obtain ⟨t', ht', ⟨r, -, rfl⟩ | ⟨-, -, hsame⟩⟩ := exec_command_outcome hcmd s
  all_goals obtain rfl := Host.Outcome.next.inj (ht'.symm.trans ht)
  · rfl
  · exact hsame

end Sys2Proof.Machine
end

section
/-! SUPPORT. The host's side of a step (10_state.md R20, R21, 30_encoding.md R80): register writes, and a write of CMD with the
command it starts. -/

namespace Sys2Proof.Machine

open Sys2Proof

/-! ### Reset (70_reset_and_hazards.md R230, R231) -/

theorem work_clear_wf : Work.clear.wf = true := by decide

/-! ### Register writes -/

/-- A step with nothing pending changes nothing (60_exceptions.md R213). -/
theorem step_of_idle {s : State} (h : s.pending = []) : step s = .next s := by
  simp only [step, takeAction, h]

/-- A step takes the first pending action. -/
theorem step_of_pending {s : State} {a : HostAction} {rest : List HostAction} (h : s.pending = a :: rest) :
    step s = act a { s with pending := rest } := by
  simp only [step, takeAction, h]

/-- A write of a register other than CMD is the change of that register and starts nothing. -/
theorem step_of_writeReg {s t : State} {n : Nat} {v : Word} {rest : List HostAction} (h : s.pending = .setReg n v :: rest)
    (hn : n ≠ 0) (hwrite : { s with pending := rest }.writeReg v n = some t) : step s = .next t := by
  rw [step_of_pending h]
  simp only [act, hostWrite, hwrite, if_neg hn]

/-- A write of CMD stores the word and runs it. -/
theorem step_of_cmdWrite {s : State} {w : Word} {rest : List HostAction} (h : s.pending = .setReg 0 w :: rest) :
    step s = runCmd w { s with cmd := w, pending := rest } :=
  step_of_pending h

/-! ### A write of CMD -/

/-- OP numbers stand for commands only (30_encoding.md R81). -/
theorem format_of_commandOfOp {op : Nat} {signed : Bool} {i : Instr} (h : commandOfOp op signed = some i) :
    i.format = .cmd := by
  unfold commandOfOp at h
  split at h <;> cases h <;> rfl

/-- A CMD word decodes to a command. -/
theorem format_of_decodeCmd {w : Word} {i : Instr} (h : decodeCmd w = .ok i) : i.format = .cmd := by
  unfold decodeCmd at h
  split at h
  · cases h
  · next j hj =>
    split_ifs at h
    cases h
    exact format_of_commandOfOp hj

/-- What a CMD word does: an illegal one refuses with RF_BAD_OP, any other runs a command (30_encoding.md R82). -/
theorem runCmd_cases (w : Word) :
    (∀ s, runCmd w s = .next (refuse .badOp s)) ∨ (∃ i, i.format = .cmd ∧ ∀ s, runCmd w s = exec i s) := by
  unfold runCmd
  cases h : decodeCmd w with
  | error e => exact .inl fun _ => rfl
  | ok i => exact .inr ⟨i, format_of_decodeCmd h, fun _ => rfl⟩

/-- A write of CMD ends DONE or refused (10_state.md R23). -/
theorem runCmd_status {w : Word} {s t : State} (ht : runCmd w s = .next t) :
    t.status = statusDone ∨ ∃ r, t.status = statusRefused r := by
  obtain hbad | ⟨i, hcmd, hrun⟩ := runCmd_cases w
  · obtain rfl := Host.Outcome.next.inj ((hbad s).symm.trans ht)
    exact .inr ⟨_, rfl⟩
  · obtain ⟨t', ht', hend⟩ := exec_command_outcome hcmd s
    obtain rfl := Host.Outcome.next.inj (ht'.symm.trans ((hrun s).symm.trans ht))
    obtain ⟨r, -, rfl⟩ | ⟨-, hdone, -⟩ := hend
    · exact .inr ⟨r, rfl⟩
    · exact .inl hdone

/-! ### The fields of STATUS (10_state.md R23) -/

/-- STATUS of a refused command is not that of a completed one. -/
theorem statusRefused_ne_done (r : Reason) : statusRefused r ≠ statusDone := by
  cases r <;> decide

/-- A STATUS word that reports an end: one of DONE and REFUSED, REASON 0 with DONE, and the unused bits 0. -/
def ReportsEnd (w : Word) : Prop :=
  doneBit w = !refusedBit w ∧ (doneBit w = true → reasonField w = 0#4) ∧
    w.extractLsb' 2 2 = 0#2 ∧ w.extractLsb' 8 24 = 0#24

theorem reportsEnd_statusDone : ReportsEnd statusDone := ⟨rfl, fun _ => rfl, rfl, rfl⟩

theorem reportsEnd_statusRefused (r : Reason) : ReportsEnd (statusRefused r) := by
  cases r <;> exact ⟨rfl, by decide, rfl, rfl⟩

end Sys2Proof.Machine
end

section
/-! SUPPORT. The working registers never show outside themselves (10_state.md R25, R30): the outcomes of two states that agree
but for them agree but for them, command by command, action by action. -/

namespace Sys2Proof.Machine

open Sys2Proof

/-- Two outcomes that agree but for the working registers of the next state. -/
def AgreeButWork (o o' : Out) : Prop :=
  (∀ t, o = .next t → ∃ u, o' = .next u ∧ SameButWork t u) ∧ (∀ r, o = .fault r → o' = .fault r)

theorem agreeButWork_next {t u : State} (h : SameButWork t u) : AgreeButWork (.next t) (.next u) := by
  refine ⟨fun t' ht => ⟨u, rfl, ?_⟩, fun r hr => nomatch hr⟩
  rwa [← Host.Outcome.next.inj ht]

theorem agreeButWork_fault (r : Fault) : AgreeButWork (.fault r) (.fault r) := ⟨fun _ h => (nomatch h), fun _ h => h⟩

/-- A command whose effect does not show the working registers does not. -/
theorem CompletesWith.agreeButWork {i : Instr} {effect : State → State} (hi : CompletesWith i effect) (s : State) (k : Work)
    (heffect : SameButWork (effect s) (effect { s with work := k })) :
    AgreeButWork (exec i s) (exec i { s with work := k }) := by
  rw [hi s, hi { s with work := k }, commandCheck_readsInputs i s _ (sameInputs_setWork s k)]
  apply agreeButWork_next
  cases commandCheck i s with
  | none => exact heffect
  | some r => rfl

/-- A command: a BC6H command clears the working registers before it reads one, and the others read none. -/
theorem exec_agreeButWork {i : Instr} (hcmd : i.format = .cmd) (s : State) (k : Work) :
    AgreeButWork (exec i s) (exec i { s with work := k }) := by
  have hsame := sameInputs_setWork s k
  obtain ⟨-, dst, work, hdst, hwork, hi⟩ | ⟨-, hi⟩ | ⟨-, dst, hdst, hi⟩ := exec_command_cases hcmd
  · refine hi.agreeButWork s k ?_
    rw [hdst s _ hsame, hwork s _ hsame]
    rfl
  · exact hi.agreeButWork s k rfl
  · refine hi.agreeButWork s k ?_
    rw [hdst s _ hsame]
    rfl

/-- A write of CMD. -/
theorem runCmd_agreeButWork (w : Word) (s : State) (k : Work) :
    AgreeButWork (runCmd w s) (runCmd w { s with work := k }) := by
  obtain hbad | ⟨i, hcmd, hrun⟩ := runCmd_cases w
  · rw [hbad, hbad]
    exact agreeButWork_next rfl
  · rw [hrun, hrun]
    exact exec_agreeButWork hcmd s k

/-- The register change of a host write neither reads nor changes the working registers. -/
theorem writeReg_setWork (s : State) (k : Work) (v : Word) (n : Nat) :
    { s with work := k }.writeReg v n = (s.writeReg v n).map fun t => { t with work := k } := by
  unfold State.writeReg
  split <;> rfl

/-- A host write of any register. -/
theorem hostWrite_agreeButWork (n : Nat) (v : Word) (s : State) (k : Work) :
    AgreeButWork (hostWrite n v s) (hostWrite n v { s with work := k }) := by
  have hsetWork := writeReg_setWork s k v n
  cases hwrite : s.writeReg v n with
  | none =>
    rw [hwrite, Option.map_none] at hsetWork
    simp only [hostWrite, hwrite, hsetWork]
    exact agreeButWork_fault _
  | some t =>
    rw [hwrite, Option.map_some] at hsetWork
    simp only [hostWrite, hwrite, hsetWork]
    split
    · exact runCmd_agreeButWork v t k
    · exact agreeButWork_next rfl

/-- Any host action. -/
theorem act_agreeButWork (a : HostAction) (s : State) (k : Work) :
    AgreeButWork (act a s) (act a { s with work := k }) := by
  cases a with
  | setReg n v => exact hostWrite_agreeButWork n v s k
  | loadSrc b => exact agreeButWork_next rfl
  | moveDstToSrc => exact agreeButWork_next rfl
  | handOver src dst overlap => exact agreeButWork_next rfl
  | resetCore => exact agreeButWork_next rfl

/-- A step. -/
theorem step_agreeButWork (s : State) (k : Work) : AgreeButWork (step s) (step { s with work := k }) := by
  obtain ⟨hpending, hstep⟩ | ⟨a, rest, hpending, hstep⟩ := step_cases s
  · have hidle : step { s with work := k } = .next { s with work := k } := step_of_idle hpending
    rw [hstep, hidle]
    exact agreeButWork_next rfl
  · have hact : step { s with work := k } = act a { s with work := k, pending := rest } := step_of_pending hpending
    rw [hstep, hact]
    exact act_agreeButWork a { s with pending := rest } k

end Sys2Proof.Machine
end

section
/-! The statements of the family of 10_state.md, settled. -/

namespace Sys2Proof.Machine

open Sys2Proof

/-- Settles O8: a refused command is not DONE, and one whose checks pass is. -/
theorem commandsCompleteWhenChecksPass : Obligations.CommandsCompleteWhenChecksPass := by
  intro i s hcmd
  obtain ⟨t, ht, hend⟩ := exec_command_outcome hcmd s
  refine ⟨t, ht, ?_⟩
  rw [← commandCheck_eq_none_iff hcmd, ← statusDone_eq]
  obtain ⟨r, hcheck, rfl⟩ | ⟨hcheck, hdone, -⟩ := hend
  · exact iff_of_false (statusRefused_ne_done r) (by simp [hcheck])
  · exact iff_of_true hdone hcheck

/-- Settles O10: STATUS after a write of CMD is one of the words whose fields are known. -/
theorem everyCommandReportsDoneOrRefused : Obligations.EveryCommandReportsDoneOrRefused := by
  intro s t w rest hpending ht
  rw [step_of_cmdWrite hpending] at ht
  have hend : ReportsEnd t.status := by
    obtain hdone | ⟨r, hrefused⟩ := runCmd_status ht
    · exact hdone ▸ reportsEnd_statusDone
    · exact hrefused ▸ reportsEnd_statusRefused r
  exact hend

/-- Settles O11: what a command reads it leaves as it was, and its form says what it writes. -/
theorem commandsLeaveSourceAndOperands : Obligations.CommandsLeaveSourceAndOperands := by
  intro i s t hcmd ht
  obtain ⟨hoperands, hsrc, haliased⟩ := (sameInputs_iff s t).1 (sameInputs_of_exec hcmd ht)
  refine ⟨hoperands, hsrc, haliased, ?_⟩
  obtain ⟨⟨signed, hbc6h⟩, dst, work, -, -, hi⟩ | ⟨hmorton, hi⟩ | ⟨hmorton, dst, -, hi⟩ := exec_command_cases hcmd
  all_goals obtain ⟨r, -, rfl⟩ | ⟨-, rfl⟩ := hi.cases ht
  · exact ⟨fun _ => rfl, fun _ => rfl, fun _ => rfl⟩
  · refine ⟨fun _ => rfl, fun hmorton => ?_, fun hother => ?_⟩
    · simp [hmorton] at hbc6h
    · simp [hother signed] at hbc6h
  · exact ⟨fun _ => rfl, fun _ => rfl, fun _ => rfl⟩
  · exact ⟨fun hother => absurd hmorton hother, fun _ => rfl, fun _ => rfl⟩
  · exact ⟨fun _ => rfl, fun _ => rfl, fun _ => rfl⟩
  · exact ⟨fun _ => rfl, fun h => absurd h hmorton, fun _ => rfl⟩

/-- Settles O14, action by action. -/
theorem workingRegistersNeverShow : Obligations.WorkingRegistersNeverShow :=
  step_agreeButWork

/-- Settles O3: each register by its own write. -/
theorem hostRegisterWritesStoreOrAreIgnored : Obligations.HostRegisterWritesStoreOrAreIgnored := by
  intro s v rest
  refine ⟨?_, ?_, ?_, ?_, ?_, ?_, ?_, ?_⟩
  all_goals exact fun h => step_of_writeReg h (by decide) rfl

/-- Settles O5: each of the nine registers is read. -/
theorem resetClearsDescriptorRegisters : Obligations.ResetClearsDescriptorRegisters := by
  refine ⟨fun n hn => ?_, rfl, rfl⟩
  interval_cases n <;> rfl

/-- Settles O59: STATUS, the buffers and the working registers each meet their part. -/
theorem resetMeetsTheInvariant : Obligations.ResetMeetsTheInvariant where
  status := rfl
  mem := reset_mem_wf
  work := work_clear_wf

end Sys2Proof.Machine
end

section
/-! SUPPORT. What a command gives on two states it does not tell apart, and what it gives on its own result (20_memory.md
R59); and the step of one core of a platform (60_exceptions.md R211). -/

namespace Sys2Proof.Machine

open Sys2Proof

/-! ### A command on two states with the same inputs -/

/-- A command ends alike on states it does not tell apart: it refuses both for one reason, or completes on both. -/
theorem CompletesWith.sameInputs_cases {i : Instr} {effect : State → State} (hi : CompletesWith i effect) {s s' : State}
    (hsame : SameInputs s s') :
    (∃ r, exec i s = .next (refuse r s) ∧ exec i s' = .next (refuse r s')) ∨
      (exec i s = .next (effect s) ∧ exec i s' = .next (effect s')) := by
  rw [hi s, hi s', commandCheck_readsInputs i s s' hsame]
  cases commandCheck i s with
  | none => exact .inr ⟨rfl, rfl⟩
  | some r => exact .inl ⟨r, rfl, rfl⟩

/-- A command whose effect has nothing left to do on its own result does nothing more on what it gave, refused or not. -/
theorem CompletesWith.exec_of_exec {i : Instr} {effect : State → State} (hi : CompletesWith i effect)
    (heffect : ∀ s, SameInputs s (effect s) → effect (effect s) = effect s) {s t : State} (hsame : SameInputs s t)
    (ht : exec i s = .next t) : exec i t = .next t := by
  obtain ⟨r, hs, hagain⟩ | ⟨hs, hagain⟩ := hi.sameInputs_cases hsame
  all_goals obtain rfl := Host.Outcome.next.inj (hs.symm.trans ht)
  · exact hagain
  · rw [hagain, heffect s hsame]

/-- What the outputs of two runs of command `i` share: STATUS, and where the command completed, its DST or its RESULT. -/
def SameOutputs (i : Instr) (t t' : State) : Prop :=
  t'.status = t.status ∧
    (t.status = statusDone → (i ≠ .mortonIndex → t'.mem.dst = t.mem.dst) ∧ (i = .mortonIndex → t'.result = t.result))

/-- Runs on states a command does not tell apart have the same outputs where its effects on them do. A refusal shows only
its reason. -/
theorem CompletesWith.sameOutputs {i : Instr} {effect : State → State} (hi : CompletesWith i effect) {s s' t t' : State}
    (hsame : SameInputs s s') (heffect : SameOutputs i (effect s) (effect s')) (ht : exec i s = .next t)
    (ht' : exec i s' = .next t') : SameOutputs i t t' := by
  obtain ⟨r, hs, hs'⟩ | ⟨hs, hs'⟩ := hi.sameInputs_cases hsame
  all_goals
    obtain rfl := Host.Outcome.next.inj (hs.symm.trans ht)
    obtain rfl := Host.Outcome.next.inj (hs'.symm.trans ht')
  · exact ⟨rfl, fun hdone => absurd hdone (statusRefused_ne_done r)⟩
  · exact heffect

/-! ### A step of one core of a platform -/

/-- Core `k` of a platform steps where it exists and its own step goes on; the step replaces its state and no other. -/
theorem Platform.stepAt_eq_some_iff {p q : Platform} {k : Nat} :
    p.stepAt k = some q ↔ ∃ s t, p.cores[k]? = some s ∧ step s = .next t ∧ q = ⟨p.cores.set k t⟩ := by
  constructor
  · intro h
    unfold Platform.stepAt at h
    split at h
    · cases h
    · next s hs =>
      split at h
      · next t ht => exact ⟨s, t, hs, ht, (Option.some.inj h).symm⟩
      · cases h
      · cases h
  · rintro ⟨s, t, hs, ht, rfl⟩
    simp only [Platform.stepAt, hs, ht]

end Sys2Proof.Machine
end

section
/-! SUPPORT. The words a BC6H command writes (20_memory.md R54, 41_bc6h.md R125, R126): the packing, the float round trip, the
channels of the pixels, and DST after the command. -/

namespace Sys2Proof.Machine

open Sys2Proof

/-! ### The packing and the float round trip -/

/-- The four bytes of a packed ARGB word, bit by bit: each bit is set by one operand of the OR alone (20_memory.md R54). -/
theorem packArgb_fields (c : Rgb Byte) :
    (packArgb c).extractLsb' 24 8 = 0xFF#8 ∧ (packArgb c).extractLsb' 16 8 = c.r ∧
      (packArgb c).extractLsb' 8 8 = c.g ∧ (packArgb c).extractLsb' 0 8 = c.b := by
  refine ⟨?_, ?_, ?_, ?_⟩
  all_goals
    ext i hi
    interval_cases i <;> simp [packArgb]

/-- The round trip through binary32 gives back each of the 256 channel values (41_bc6h.md R126). The error
bounds of its two roundings do not rule out a product just below `c`, which would drop to `c - 1`, so each value is computed. -/
theorem floatRoundTrip_eq : ∀ c, floatRoundTrip c = c := by decide +kernel

/-! ### The channels of the pixels -/

theorem length_pixelBytes (k : Work) : (pixelBytes k).length = 16 := by
  unfold pixelBytes
  cases k.midx <;> simp

/-- After a block of a mode, a pixel's channels are BC6H_TO8 of its finished values (41_bc6h.md R125). -/
theorem getElem?_pixelBytes_of_mode {k : Work} {m : Fin 14} (hmode : k.midx = .mode m) (j : Fin 16) :
    (pixelBytes k)[j.val]? = some (k.h[j].map Config.bc6hTo8) := by
  simp [pixelBytes, hmode]

/-- After a reserved block, they are 0 (41_bc6h.md R112). -/
theorem getElem?_pixelBytes_of_rsv {k : Work} (hrsv : k.midx = .rsv) (j : Fin 16) :
    (pixelBytes k)[j.val]? = some (Rgb.all 0) := by
  simp only [pixelBytes, hrsv]
  exact List.getElem?_replicate_of_lt j.isLt

/-! ### DST after the command -/

/-- A BC6H body writes the packed channels of the pixels it leaves in the working registers (41_bc6h.md R110). -/
theorem bc6hBody_dst (signed : Bool) (f : Rgb Byte → Rgb Byte) (s : State) :
    (bc6hBody signed f s).mem.dst = .words ((pixelBytes (bc6hBody signed f s).work).map (packArgb ∘ f)) := by
  obtain ⟨p, hparse⟩ := parseBlock_eq_some (blockOfBytes s.mem.src.asBytes)
  simp only [bc6hBody, hparse, complete_mem, complete_work, setDst_mem, setDst_work, setDst_dst]
  rfl

/-- Both BC6H commands write the packed channels as BC6H_DEC gives them, the float round trip changing none. -/
theorem dst_of_bc6hCommand {i : Instr} {signed : Bool} (hi : i ∈ [Instr.bc6hDec signed, Instr.bc6hDecF signed])
    {s t : State} (ht : exec i s = .next t) (hdone : t.status = statusDone) :
    t.mem.dst = .words ((pixelBytes t.work).map packArgb) := by
  obtain ⟨f, hf, hbody⟩ : ∃ f, packArgb ∘ f = packArgb ∧ CompletesWith i (bc6hBody signed f) := by
    obtain rfl | rfl := List.mem_pair.1 hi
    · exact ⟨id, rfl, fun _ => rfl⟩
    · refine ⟨Rgb.map floatRoundTrip, funext fun c => ?_, fun _ => rfl⟩
      simp only [Function.comp_apply, Rgb.map, floatRoundTrip_eq]
  obtain ⟨r, -, rfl⟩ | ⟨-, rfl⟩ := hbody.cases ht
  · exact absurd hdone (statusRefused_ne_done r)
  · rw [bc6hBody_dst, hf]

end Sys2Proof.Machine
end

section
/-! The statements of the family of 20_memory.md, settled. -/

namespace Sys2Proof.Machine

open Sys2Proof

/-- Settles O12: what a command writes to DST and the working registers it reads off inputs it does not change. -/
theorem commandsAreIdempotent : Obligations.CommandsAreIdempotent := by
  intro i s t hcmd ht
  have hsame := sameInputs_of_exec hcmd ht
  obtain ⟨-, dst, work, hdst, hwork, hi⟩ | ⟨-, hi⟩ | ⟨-, dst, hdst, hi⟩ := exec_command_cases hcmd
  · refine hi.exec_of_exec (fun s h => ?_) hsame ht
    rw [hdst s _ h, hwork s _ h]
    rfl
  · exact hi.exec_of_exec (fun _ _ => rfl) hsame ht
  · refine hi.exec_of_exec (fun s h => ?_) hsame ht
    rw [hdst s _ h]
    rfl

/-- Settles O13: the checks and what each form of command writes read the inputs alone. -/
theorem outputsDependOnOperandsAndSource : Obligations.OutputsDependOnOperandsAndSource := by
  intro i s s' t t' hcmd hoperands hsrc haliased ht ht'
  have hsame : SameInputs s s' := (sameInputs_iff s s').2 ⟨hoperands, hsrc, haliased⟩
  obtain ⟨⟨signed, hbc6h⟩, dst, work, hdst, -, hi⟩ | ⟨hmorton, hi⟩ | ⟨hmorton, dst, hdst, hi⟩ := exec_command_cases hcmd
  · refine hi.sameOutputs hsame ⟨rfl, fun _ => ⟨fun _ => hdst s s' hsame, fun hmorton => ?_⟩⟩ ht ht'
    simp [hmorton] at hbc6h
  · refine hi.sameOutputs hsame ⟨rfl, fun _ => ⟨fun hother => absurd hmorton hother, fun _ => ?_⟩⟩ ht ht'
    rw [hsame]
  · exact hi.sameOutputs hsame ⟨rfl, fun _ => ⟨fun _ => hdst s s' hsame, fun h => absurd h hmorton⟩⟩ ht ht'

/-- Settles O28: the word of pixel `k` is its packed channels, which MIDX says where to find. -/
theorem bc6hOutputWordsArePackedArgb : Obligations.Bc6hOutputWordsArePackedArgb := by
  intro s t signed i hi ht hdone
  refine ⟨_, dst_of_bc6hCommand hi ht hdone, by rw [List.length_map, length_pixelBytes], fun k => ?_⟩
  have hlt : k.val < (pixelBytes t.work).length := by rw [length_pixelBytes]; exact k.isLt
  obtain ⟨c, hc⟩ : ∃ c, (pixelBytes t.work)[k.val]? = some c := ⟨_, List.getElem?_eq_getElem hlt⟩
  have hword : ((pixelBytes t.work).map packArgb).getD k.val 0 = packArgb c := by
    rw [List.getD_eq_getElem?_getD, List.getElem?_map, hc]
    rfl
  obtain ⟨halpha, hred, hgreen, hblue⟩ := packArgb_fields c
  rw [hword]
  refine ⟨halpha, fun m hmode => ?_, fun hrsv => ?_⟩
  · obtain rfl := Option.some.inj ((getElem?_pixelBytes_of_mode hmode k).symm.trans hc)
    exact ⟨hred, hgreen, hblue⟩
  · obtain rfl := Option.some.inj ((getElem?_pixelBytes_of_rsv hrsv k).symm.trans hc)
    rfl

/-- Settles O15: a step at one index reads its own core alone, and replacements at two indices commute. -/
theorem distinctInstancesCommute : Obligations.DistinctInstancesCommute := by
  intro p q r j k hjk hj hk
  obtain ⟨s, s', hs, hstep, rfl⟩ := Platform.stepAt_eq_some_iff.1 hj
  obtain ⟨t, t', ht, hstep', rfl⟩ := Platform.stepAt_eq_some_iff.1 hk
  rw [List.getElem?_set_ne hjk] at ht
  have hs' : (p.cores.set k t')[j]? = some s := by rw [List.getElem?_set_ne hjk.symm, hs]
  have hcomm : (p.cores.set j s').set k t' = (p.cores.set k t').set j s' := List.set_comm s' t' hjk
  exact ⟨⟨p.cores.set k t'⟩, Platform.stepAt_eq_some_iff.2 ⟨t, t', ht, hstep', rfl⟩,
    Platform.stepAt_eq_some_iff.2 ⟨s, s', hs', hstep, congrArg Platform.mk hcomm⟩⟩

end Sys2Proof.Machine
end

section
/-! SUPPORT. Values side by side in a block (30_encoding.md R70), and reversed runs (40_bitstream.md R101). -/

namespace Sys2Proof

/-! ### Pieces side by side -/

/-- The number of bits of a list of pieces. -/
def piecesWidth (ps : List (Nat × Nat)) : Nat := (ps.map Prod.fst).sum

@[simp] theorem piecesWidth_cons (n v : Nat) (ps : List (Nat × Nat)) :
    piecesWidth ((n, v) :: ps) = n + piecesWidth ps := rfl

theorem packPieces_lt (ps : List (Nat × Nat)) : packPieces ps < 2 ^ piecesWidth ps := by
  induction ps with
  | nil => exact Nat.one_pos
  | cons p ps ih =>
    obtain ⟨n, v⟩ := p
    have hlow : v % 2 ^ n < 2 ^ n := Nat.mod_lt _ (Nat.two_pow_pos n)
    rw [packPieces_cons, piecesWidth_cons, Nat.pow_add]
    calc v % 2 ^ n + 2 ^ n * packPieces ps < 2 ^ n * (packPieces ps + 1) := by rw [Nat.mul_succ]; omega
      _ ≤ 2 ^ n * 2 ^ piecesWidth ps := Nat.mul_le_mul_left _ ih

/-- The block holds the pieces, packed, from bit `cur` on. -/
def HoldsAt (b : Block) (cur : Nat) (ps : List (Nat × Nat)) : Prop :=
  (b.toNat >>> cur) % 2 ^ piecesWidth ps = packPieces ps

@[simp] theorem holdsAt_nil (b : Block) (cur : Nat) : HoldsAt b cur [] := Nat.mod_one _

/-- A block holds pieces where it holds the first and, after its width, the others. -/
@[simp] theorem holdsAt_cons (b : Block) (cur n v : Nat) (ps : List (Nat × Nat)) :
    HoldsAt b cur ((n, v) :: ps) ↔ (b.toNat >>> cur) % 2 ^ n = v % 2 ^ n ∧ HoldsAt b (cur + n) ps := by
  have hlow (x : Nat) : x % 2 ^ n < 2 ^ n := Nat.mod_lt _ (Nat.two_pow_pos n)
  unfold HoldsAt
  rw [piecesWidth_cons, packPieces_cons, Nat.pow_add, Nat.mod_mul, Nat.shiftRight_add,
    Nat.shiftRight_eq_div_pow (_ >>> _) n]
  generalize b.toNat >>> cur = x, packPieces ps = high
  refine ⟨fun h => ?_, fun ⟨h, h'⟩ => by rw [h, h']⟩
  have hmod := congrArg (· % 2 ^ n) h
  have hdiv := congrArg (· / 2 ^ n) h
  simp only [Nat.add_mul_mod_self_left, Nat.mod_mod, Nat.add_mul_div_left _ _ (Nat.two_pow_pos n),
    Nat.div_eq_of_lt (hlow _), Nat.zero_add] at hmod hdiv
  exact ⟨hmod, hdiv⟩

theorem holdsAt_append (b : Block) (cur : Nat) (ps qs : List (Nat × Nat)) :
    HoldsAt b cur (ps ++ qs) ↔ HoldsAt b cur ps ∧ HoldsAt b (cur + piecesWidth ps) qs := by
  induction ps generalizing cur with
  | nil => simp [piecesWidth]
  | cons p ps ih =>
    obtain ⟨n, v⟩ := p
    rw [List.cons_append, holdsAt_cons, holdsAt_cons, ih, piecesWidth_cons, Nat.add_assoc, and_assoc]

/-- Pieces that fill a block are the block. -/
theorem ofNat_packPieces_eq_iff (b : Block) {ps : List (Nat × Nat)} (hfull : piecesWidth ps = 128) :
    BitVec.ofNat 128 (packPieces ps) = b ↔ HoldsAt b 0 ps := by
  have hlt := packPieces_lt ps
  rw [hfull] at hlt
  rw [← BitVec.toNat_inj, BitVec.toNat_ofNat, HoldsAt, hfull, Nat.shiftRight_zero, Nat.mod_eq_of_lt hlt,
    Nat.mod_eq_of_lt b.isLt, eq_comm]

/-! ### Reversed runs -/

theorem testBit_foldl_or {α : Type} (g : α → Nat) (l : List α) (z i : Nat) :
    (l.foldl (fun r a => r ||| g a) z).testBit i = (z.testBit i || l.any fun a => (g a).testBit i) := by
  induction l generalizing z with
  | nil => simp
  | cons a l ih => rw [List.foldl_cons, ih, Nat.testBit_or, List.any_cons, Bool.or_assoc]

/-- Bit `i` of the reversed value is bit `n - 1 - i` of the value (40_bitstream.md R101). -/
theorem testBit_reverseBits (n v i : Nat) :
    (reverseBits n v).testBit i = (decide (i < n) && v.testBit (n - 1 - i)) := by
  rw [reverseBits, testBit_foldl_or, Bool.eq_iff_iff]
  simp only [Nat.zero_testBit, Bool.false_or, List.any_eq_true, List.mem_range, Nat.testBit_shiftLeft, Nat.testBit_and,
    Nat.testBit_shiftRight, Nat.testBit_one_eq_true_iff_self_eq_zero, Bool.and_eq_true, decide_eq_true_eq]
  constructor
  · rintro ⟨j, hj, hle, hbit, hzero⟩
    have hij : n - 1 - i = j + (i - (n - 1 - j)) := by omega
    exact ⟨by omega, by rwa [hij]⟩
  · rintro ⟨hi, hbit⟩
    have hzero : i - (n - 1 - (n - 1 - i)) = 0 := by omega
    exact ⟨n - 1 - i, by omega, by omega, by rwa [hzero], hzero⟩

theorem reverseBits_lt (n v : Nat) : reverseBits n v < 2 ^ n := by
  refine Nat.lt_pow_two_of_testBit _ fun i hi => ?_
  simp [testBit_reverseBits, Nat.not_lt.2 hi]

/-- Reversing twice gives back the value. -/
theorem reverseBits_reverseBits {n v : Nat} (hv : v < 2 ^ n) : reverseBits n (reverseBits n v) = v := by
  refine Nat.eq_of_testBit_eq fun i => ?_
  rw [testBit_reverseBits, testBit_reverseBits]
  by_cases hi : i < n
  · have hback : n - 1 - (n - 1 - i) = i := by omega
    have hlt : n - 1 - i < n := by omega
    simp [hi, hlt, hback]
  · simp [hi, Nat.testBit_lt_two_pow (hv.trans_le (Nat.pow_le_pow_right Nat.two_pos (Nat.not_lt.1 hi)))]

end Sys2Proof
end

section
/-! SUPPORT. The endpoint rows of a block (30_encoding.md R75, R77): reading them gives the endpoints whose pieces the block
holds. -/

namespace Sys2Proof

/-! ### Endpoint bits -/

theorem Chan.forall_iff {P : Chan → Prop} : (∀ c, P c) ↔ P .r ∧ P .g ∧ P .b :=
  ⟨fun h => ⟨h _, h _, h _⟩, fun ⟨hr, hg, hb⟩ c => by cases c <;> assumption⟩

theorem EpIx.forall_iff {P : EpIx → Prop} : (∀ e, P e) ↔ P .w ∧ P .x ∧ P .y ∧ P .z :=
  ⟨fun h => ⟨h _, h _, h _, h _⟩, fun ⟨hw, hx, hy, hz⟩ e => by cases e <;> assumption⟩

@[simp] theorem Rgb.get_modify {α : Type} (p : Rgb α) (c c' : Chan) (f : α → α) :
    (p.modify c f).get c' = if c = c' then f (p.get c') else p.get c' := by
  cases c <;> cases c' <;> rfl

@[simp] theorem Quad.get_modify {α : Type} (q : Quad α) (e e' : EpIx) (f : α → α) :
    (q.modify e f).get e' = if e = e' then f (q.get e') else q.get e' := by
  cases e <;> cases e' <;> rfl

/-- Bit `i` of endpoint `e` of channel `c`. -/
def epBit (ep : Rgb (Quad Nat)) (c : Chan) (e : EpIx) (i : Nat) : Bool := ((ep.get c).get e).testBit i

@[simp] theorem epBit_zero (c : Chan) (e : EpIx) (i : Nat) : epBit (Rgb.all (Quad.all 0)) c e i = false := by
  cases c <;> cases e <;> exact Nat.zero_testBit i

theorem Rgb.eq_of_get_eq {α : Type} {p q : Rgb α} (h : ∀ c, p.get c = q.get c) : p = q := by
  cases p
  cases q
  congr
  exacts [h .r, h .g, h .b]

theorem Quad.eq_of_get_eq {α : Type} {p q : Quad α} (h : ∀ e, p.get e = q.get e) : p = q := by
  cases p
  cases q
  congr
  exacts [h .w, h .x, h .y, h .z]

/-- Endpoints with the same bits are the same. -/
theorem eq_of_epBit_eq {ep ep' : Rgb (Quad Nat)} (h : ∀ c e i, epBit ep c e i = epBit ep' c e i) : ep = ep' :=
  Rgb.eq_of_get_eq fun c => Quad.eq_of_get_eq fun e => Nat.eq_of_testBit_eq (h c e)

/-- The row of FIELD_LAYOUT holds bit `i` of endpoint `e` of channel `c`. -/
def FieldRow.Covers (row : FieldRow) (c : Chan) (e : EpIx) (i : Nat) : Prop :=
  (row.ch = c ∧ row.ep = e) ∧ row.lo ≤ i ∧ i < row.lo + row.width

/-- No endpoint bit is held by both rows. -/
def FieldRow.Apart (row row' : FieldRow) : Prop := ∀ c e i, row.Covers c e i → ¬ row'.Covers c e i

/-- Storing a value sets the bits its row holds. -/
theorem epBit_orInto_of_covers {row : FieldRow} {c : Chan} {e : EpIx} {i : Nat} (h : row.Covers c e i) (v : Nat)
    (ep : Rgb (Quad Nat)) : epBit (row.orInto v ep) c e i = (epBit ep c e i || v.testBit (i - row.lo)) := by
  obtain ⟨⟨rfl, rfl⟩, hlo, -⟩ := h
  simp [epBit, FieldRow.orInto, hlo]

/-- Storing a value that fits its row keeps the bits the row does not hold. -/
theorem epBit_orInto_of_not_covers {row : FieldRow} {c : Chan} {e : EpIx} {i v : Nat} (h : ¬ row.Covers c e i)
    (hv : v < 2 ^ row.width) (ep : Rgb (Quad Nat)) : epBit (row.orInto v ep) c e i = epBit ep c e i := by
  unfold epBit FieldRow.orInto
  rw [Rgb.get_modify]
  split_ifs with hch
  · rw [Quad.get_modify]
    split_ifs with hep
    · have houtside : (v <<< row.lo).testBit i = false := by
        rw [Nat.testBit_shiftLeft, Bool.and_eq_false_imp, decide_eq_true_eq]
        intro hlo
        have hhigh : row.width ≤ i - row.lo := by
          by_contra hlt
          exact h ⟨⟨hch, hep⟩, hlo, by omega⟩
        exact Nat.testBit_lt_two_pow (hv.trans_le (Nat.pow_le_pow_right Nat.two_pos hhigh))
      rw [Nat.testBit_or, houtside, Bool.or_false]
    · rfl
  · rfl

/-! ### Endpoint rows, read and written -/

/-- The endpoints have the same bits where none of the rows holds them. -/
def AgreeOff (rows : List FieldRow) (ep ep' : Rgb (Quad Nat)) : Prop :=
  ∀ c e i, (∀ row ∈ rows, ¬ row.Covers c e i) → epBit ep c e i = epBit ep' c e i

theorem agreeOff_nil (ep ep' : Rgb (Quad Nat)) : AgreeOff [] ep ep' ↔ ep = ep' :=
  ⟨fun h => eq_of_epBit_eq fun c e i => h c e i (by simp), fun h _ _ _ _ => h ▸ rfl⟩

/-- A cut of `x` is `v` where it has its bits. -/
theorem shiftRight_mod_two_pow_eq_iff (x lo : Nat) {n v : Nat} (hv : v < 2 ^ n) :
    (x >>> lo) % 2 ^ n = v ↔ ∀ i, lo ≤ i ∧ i < lo + n → x.testBit i = v.testBit (i - lo) := by
  constructor
  · rintro rfl i ⟨hlo, hi⟩
    have hinside : i - lo < n := by omega
    simp [Nat.testBit_mod_two_pow, Nat.testBit_shiftRight, hinside, Nat.add_sub_cancel' hlo]
  · intro h
    refine Nat.eq_of_testBit_eq fun j => ?_
    rw [Nat.testBit_mod_two_pow, Nat.testBit_shiftRight]
    by_cases hj : j < n
    · simp [hj, h (lo + j) ⟨by omega, by omega⟩]
    · simp [hj, Nat.testBit_lt_two_pow (hv.trans_le (Nat.pow_le_pow_right Nat.two_pos (Nat.not_lt.1 hj)))]

theorem eq_of_readBits {b : Block} {cur n v : Nat} (h : readBits b cur n = some v) :
    (b.toNat >>> cur) % 2 ^ n = v := by
  unfold readBits at h
  split_ifs at h
  exact Option.some.inj h

/-- What a row's read gives fits the row. -/
theorem fieldRow_read_lt {row : FieldRow} {b : Block} {cur v : Nat} (h : row.read b cur = some v) :
    v < 2 ^ row.width := by
  unfold FieldRow.read readBitsR at h
  split at h
  · obtain ⟨raw, -, rfl⟩ := Option.map_eq_some_iff.1 h
    exact reverseBits_lt _ _
  · exact readBits_lt _ _ _ _ h

/-- The bits of the block at a row are those the encoder writes for the value the row's read gives, and for no other. -/
theorem bits_eq_written_iff {row : FieldRow} {b : Block} {cur v x : Nat} (h : row.read b cur = some v)
    (hx : x < 2 ^ row.width) :
    (b.toNat >>> cur) % 2 ^ row.width = (if row.reversed then reverseBits row.width x else x) % 2 ^ row.width ↔
      x = v := by
  unfold FieldRow.read readBitsR at h
  split at h
  · next hrev =>
    obtain ⟨raw, hraw, rfl⟩ := Option.map_eq_some_iff.1 h
    rw [if_pos hrev, Nat.mod_eq_of_lt (reverseBits_lt _ _), eq_of_readBits hraw]
    constructor
    · rintro rfl
      exact (reverseBits_reverseBits hx).symm
    · rintro rfl
      exact (reverseBits_reverseBits (readBits_lt _ _ _ _ hraw)).symm
  · next hfwd => rw [if_neg hfwd, Nat.mod_eq_of_lt hx, eq_of_readBits h, eq_comm]

/-- The block holds a row's piece of the endpoints where the row's read gives those bits of the endpoint. -/
theorem holdsAt_piece_iff {row : FieldRow} {b : Block} {cur v : Nat} (h : row.read b cur = some v)
    (ep : Rgb (Quad Nat)) (ps : List (Nat × Nat)) :
    HoldsAt b cur (row.piece ep :: ps) ↔
      (∀ i, row.Covers row.ch row.ep i → epBit ep row.ch row.ep i = v.testBit (i - row.lo)) ∧
        HoldsAt b (cur + row.width) ps := by
  have hbits := (bits_eq_written_iff h (Nat.mod_lt _ (Nat.two_pow_pos _))).trans
    (shiftRight_mod_two_pow_eq_iff ((ep.get row.ch).get row.ep) row.lo (fieldRow_read_lt h))
  refine (holdsAt_cons b cur row.width (row.piece ep).2 ps).trans (and_congr_left' (hbits.trans ?_))
  simp only [FieldRow.Covers, true_and, and_self]
  rfl

/-- Endpoints that agree, off the other rows, with what storing a row's value gives have that value in the row, and agree
with the endpoints before it off all rows. -/
theorem agreeOff_orInto_iff {row : FieldRow} {rows : List FieldRow} {v : Nat} {ep₀ : Rgb (Quad Nat)}
    (hv : v < 2 ^ row.width) (happart : ∀ row' ∈ rows, row.Apart row')
    (hclear : ∀ c e i, row.Covers c e i → epBit ep₀ c e i = false) (ep : Rgb (Quad Nat)) :
    AgreeOff rows ep (row.orInto v ep₀) ↔
      (∀ i, row.Covers row.ch row.ep i → epBit ep row.ch row.ep i = v.testBit (i - row.lo)) ∧
        AgreeOff (row :: rows) ep ep₀ := by
  constructor
  · intro h
    refine ⟨fun i hi => ?_, fun c e i hoff => ?_⟩
    · rw [h _ _ i fun row' hrow' => happart row' hrow' _ _ i hi, epBit_orInto_of_covers hi, hclear _ _ i hi,
        Bool.false_or]
    · obtain ⟨hrow, hrows⟩ := List.forall_mem_cons.1 hoff
      rw [h c e i hrows, epBit_orInto_of_not_covers hrow hv]
  · rintro ⟨hbits, hoff⟩ c e i hrows
    by_cases hi : row.Covers c e i
    · rw [epBit_orInto_of_covers hi, hclear c e i hi, Bool.false_or]
      obtain ⟨⟨rfl, rfl⟩, -⟩ := id hi
      exact hbits i hi
    · rw [epBit_orInto_of_not_covers hi hv]
      exact hoff c e i (List.forall_mem_cons.2 ⟨hi, hrows⟩)

/-- Reading rows that hold no bit twice gives the endpoints whose pieces the block holds, the other bits unchanged. -/
theorem readRows_eq_some_iff {rows : List FieldRow} (b : Block) {cur : Nat} {ep₀ : Rgb (Quad Nat)}
    (hwidth : ∀ row ∈ rows, 1 ≤ row.width ∧ row.width ≤ 16) (hend : cur + (rows.map FieldRow.width).sum ≤ 128)
    (hapart : rows.Pairwise FieldRow.Apart)
    (hclear : ∀ row ∈ rows, ∀ c e i, row.Covers c e i → epBit ep₀ c e i = false) (ep : Rgb (Quad Nat)) :
    readRows b rows cur ep₀ = some (ep, cur + (rows.map FieldRow.width).sum) ↔
      HoldsAt b cur (rows.map fun row => row.piece ep) ∧ AgreeOff rows ep ep₀ := by
  induction rows generalizing cur ep₀ with
  | nil => simp [readRows, agreeOff_nil, eq_comm]
  | cons row rows ih =>
    obtain ⟨⟨hpos, hle⟩, hwidths⟩ := List.forall_mem_cons.1 hwidth
    obtain ⟨hrow, hrows⟩ := List.pairwise_cons.1 hapart
    obtain ⟨hclearRow, hclearRows⟩ := List.forall_mem_cons.1 hclear
    rw [List.map_cons, List.sum_cons] at hend ⊢
    obtain ⟨v, hread⟩ := fieldRow_read_eq_some row b cur hpos hle (by omega)
    have hv := fieldRow_read_lt hread
    have hclear' : ∀ row' ∈ rows, ∀ c e i, row'.Covers c e i → epBit (row.orInto v ep₀) c e i = false := by
      intro row' hmem c e i hi
      rw [epBit_orInto_of_not_covers (fun h => hrow row' hmem c e i h hi) hv, hclearRows row' hmem c e i hi]
    rw [List.map_cons, holdsAt_piece_iff hread, readRows, hread, ← Nat.add_assoc]
    simp only
    rw [ih hwidths (by omega) hrows hclear', agreeOff_orInto_iff hv hrow hclearRow, and_left_comm, and_assoc]

end Sys2Proof
end

section
/-! SUPPORT. The blocks of the 14 modes (30_encoding.md R70 to R79): the reader gives the well-formed fields that the encoder
writes as the block. -/

namespace Sys2Proof

/-! ### The layouts -/

/-- The bits of endpoint `e` of channel `c` that a layout stores, in the order of its rows. -/
def layoutBits (m : Fin 14) (c : Chan) (e : EpIx) : List Nat :=
  ((layout m).filter fun r => r.ch == c && r.ep == e).flatMap fun r => (List.range r.width).map fun i => r.lo + i

/-- The width of an endpoint field as a block stores it: in the one-region modes y and z are not stored. -/
def storedWidth (m : Fin 14) (c : Chan) (e : EpIx) : Nat :=
  if (modeDesc m).twoRegions || e == .w || e == .x then (modeDesc m).width c e else 0

/-- A layout stores every bit of every endpoint field exactly once (30_encoding.md R73, R76). -/
theorem layoutBits_perm (m : Fin 14) (c : Chan) (e : EpIx) :
    (layoutBits m c e).Perm (List.range (storedWidth m c e)) := by
  cases c <;> cases e <;> revert m <;> decide

theorem mem_row_bits_iff (row : FieldRow) (i : Nat) :
    i ∈ (List.range row.width).map (fun j => row.lo + j) ↔ row.lo ≤ i ∧ i < row.lo + row.width := by
  simp only [List.mem_map, List.mem_range]
  constructor
  · rintro ⟨j, hj, rfl⟩
    omega
  · rintro ⟨hlo, hi⟩
    exact ⟨i - row.lo, by omega, by omega⟩

/-- The rows of a layout hold the bits of the endpoint fields and no others (30_encoding.md R73). -/
theorem exists_covers_iff (m : Fin 14) (c : Chan) (e : EpIx) (i : Nat) :
    (∃ row ∈ layout m, row.Covers c e i) ↔ i < storedWidth m c e := by
  rw [← List.mem_range, ← (layoutBits_perm m c e).mem_iff]
  simp only [layoutBits, List.mem_flatMap, List.mem_filter, mem_row_bits_iff, Bool.and_eq_true, beq_iff_eq,
    FieldRow.Covers, and_assoc]

/-- No two rows of a layout hold the same bit (30_encoding.md R73). -/
theorem layout_apart (m : Fin 14) : (layout m).Pairwise FieldRow.Apart := by
  refine List.pairwise_of_forall_sublist fun {row row'} hsub c e i hrow hrow' => ?_
  have hnodup : (layoutBits m c e).Nodup := (layoutBits_perm m c e).nodup_iff.2 List.nodup_range
  have hdisjoint := (List.pairwise_filter.1 (List.nodup_flatMap.1 hnodup).2).forall_sublist hsub
  obtain ⟨⟨rfl, rfl⟩, hi⟩ := hrow
  obtain ⟨⟨hch, hep⟩, hi'⟩ := hrow'
  exact hdisjoint (by simp) (by simp [hch, hep]) ((mem_row_bits_iff row i).2 hi) ((mem_row_bits_iff row' i).2 hi')

/-- Endpoints with no bit off the rows of a layout are those that fit its fields. -/
theorem agreeOff_layout_iff (m : Fin 14) (ep : Rgb (Quad Nat)) :
    AgreeOff (layout m) ep (Rgb.all (Quad.all 0)) ↔ ∀ c e, (ep.get c).get e < 2 ^ storedWidth m c e := by
  have hoff (c : Chan) (e : EpIx) (i : Nat) :
      (∀ row ∈ layout m, ¬ row.Covers c e i) ↔ storedWidth m c e ≤ i := by
    rw [← Nat.not_lt, ← exists_covers_iff]
    simp
  simp only [AgreeOff, hoff, epBit_zero]
  refine forall₂_congr fun c e => ⟨Nat.lt_pow_two_of_testBit _, fun h i hi => ?_⟩
  exact Nat.testBit_lt_two_pow (h.trans_le (Nat.pow_le_pow_right Nat.two_pos hi))

/-- A block's endpoints are well formed where they fit the fields that store them (30_encoding.md R76). -/
theorem epOk_iff (m : Fin 14) (f : BlockFields) :
    f.epOk m = true ↔ ∀ c e, (f.ep.get c).get e < 2 ^ storedWidth m c e := by
  simp only [Chan.forall_iff, EpIx.forall_iff, BlockFields.epOk, Rgb.allOk, storedWidth]
  cases (modeDesc m).twoRegions <;> simp [Rgb.get, Quad.get, ModeDesc.width, and_assoc]

/-! ### Mode code, partition number and indices, read and written -/

/-- Two reads, the second from where the first ends, give the bits of one read of both widths. -/
theorem or_shiftLeft_reads (x n k : Nat) : x % 2 ^ n ||| ((x >>> n) % 2 ^ k) <<< n = x % 2 ^ (n + k) := by
  rw [Nat.lor_comm, ← Nat.shiftLeft_add_eq_or_of_lt (Nat.mod_lt _ (Nat.two_pow_pos n)), Nat.shiftLeft_eq,
    Nat.shiftRight_eq_div_pow, Nat.pow_add, Nat.mod_mul, Nat.mul_comm, Nat.add_comm]

/-- The mode code is bits 1:0 where they are 0 or 1, else bits 4:0 (30_encoding.md R71). -/
theorem readModeCode_eq (b : Block) :
    readModeCode b = if b.toNat % 2 ^ 2 < 2 then some (b.toNat % 2 ^ 2, 2) else some (b.toNat % 2 ^ 5, 5) := by
  unfold readModeCode
  rw [readBits_eq_some b 0 2 (by omega) (by omega) (by omega), readBits_eq_some b 2 3 (by omega) (by omega) (by omega)]
  simp only [Nat.shiftRight_zero, or_shiftLeft_reads]

/-- MODE_TABLE selects a mode index by its code (30_encoding.md R72). -/
theorem modeOfCode_eq_some_iff (code : Nat) (m : Fin 14) : modeOfCode code = some m ↔ code = (modeDesc m).code := by
  constructor
  · intro h
    unfold modeOfCode at h
    split at h <;> cases h <;> rfl
  · rintro rfl
    revert m
    decide

/-- The codes of MODE_TABLE fit their lengths, and the low bits of a long one are no short one (30_encoding.md R71, R72). -/
theorem code_selfDelimiting (m : Fin 14) : (modeDesc m).code < 2 ^ (modeDesc m).codeLen ∧
    ((modeDesc m).codeLen = 2 ∧ (modeDesc m).code < 2 ∨ (modeDesc m).codeLen = 5 ∧ 2 ≤ (modeDesc m).code % 2 ^ 2) := by
  revert m
  decide

/-- The mode code read is the one of mode index `m` where the block begins with it. -/
theorem readModeCode_eq_some_iff (b : Block) (m : Fin 14) :
    readModeCode b = some ((modeDesc m).code, (modeDesc m).codeLen) ↔
      b.toNat % 2 ^ (modeDesc m).codeLen = (modeDesc m).code := by
  rw [readModeCode_eq]
  obtain ⟨-, ⟨hlen, hcode⟩ | ⟨hlen, hcode⟩⟩ := code_selfDelimiting m
  all_goals
    rw [hlen]
    split_ifs with hshort
  · simp
  · simp only [Option.some.injEq, Prod.mk.injEq]
    omega
  · simp only [Option.some.injEq, Prod.mk.injEq]
    omega
  · simp

/-- The partition read gives the number the block holds, 0 in a one-region mode (30_encoding.md R79). -/
theorem readPartition_eq_some_iff (b : Block) (m : Fin 14) {cur : Nat} (hend : cur + 5 ≤ 128) (p : BitVec 5) :
    readPartition b m cur = some (p, cur + if (modeDesc m).twoRegions then 5 else 0) ↔
      ((modeDesc m).twoRegions || p == 0) = true ∧ HoldsAt b cur (partitionPieces m p) := by
  unfold readPartition partitionPieces
  rw [readBits_eq_some b cur 5 (by omega) (by omega) hend]
  cases (modeDesc m).twoRegions with
  | true =>
    simp only [if_true, Option.some.injEq, Prod.mk.injEq, and_true, Bool.true_or, true_and, holdsAt_cons, holdsAt_nil,
      Nat.mod_eq_of_lt p.isLt]
    rw [← BitVec.toNat_inj, BitVec.toNat_ofNat, Nat.mod_mod]
  | false => simpa using eq_comm

/-- The index reads give the values of their widths that the block holds (30_encoding.md R78). -/
theorem readIndices_eq_some_iff (b : Block) {ns : List Nat} {cur : Nat} (hwidth : ∀ n ∈ ns, 1 ≤ n ∧ n ≤ 16)
    (hend : cur + ns.sum ≤ 128) (vs : List Nat) :
    readIndices b ns cur = some (vs, cur + ns.sum) ↔
      List.Forall₂ (fun n v => v < 2 ^ n) ns vs ∧ HoldsAt b cur (ns.zip vs) := by
  induction ns generalizing cur vs with
  | nil => simp [readIndices, eq_comm]
  | cons n ns ih =>
    obtain ⟨⟨hpos, hle⟩, hrest⟩ := List.forall_mem_cons.1 hwidth
    rw [List.sum_cons] at hend ⊢
    obtain ⟨vs', hvs'⟩ := readIndices_eq_some b ns (cur + n) hrest (by omega)
    have hlt : (b.toNat >>> cur) % 2 ^ n < 2 ^ n := Nat.mod_lt _ (Nat.two_pow_pos n)
    rw [readIndices, readBits_eq_some b cur n hpos hle (by omega)]
    cases vs with
    | nil => simp [hvs']
    | cons v vs =>
      have htail := ih hrest (show cur + n + ns.sum ≤ 128 by omega) vs
      simp only [hvs', Option.some.injEq, Prod.mk.injEq, and_true] at htail
      simp only [hvs', Option.some.injEq, Prod.mk.injEq, List.cons.injEq, Nat.add_assoc, and_true, List.forall₂_cons,
        List.zip_cons_cons, holdsAt_cons, htail]
      constructor
      · rintro ⟨rfl, hfit, hholds⟩
        exact ⟨⟨hlt, hfit⟩, (Nat.mod_mod _ _).symm, hholds⟩
      · rintro ⟨⟨hv, hfit⟩, hhead, hholds⟩
        exact ⟨hhead.trans (Nat.mod_eq_of_lt hv), hfit, hholds⟩

/-- Indices are well formed where there is one of its width for each pixel (30_encoding.md R78). -/
theorem idxOk_iff (m : Fin 14) (f : BlockFields) :
    (f.idxCountOk = true ∧ f.idxOk m = true) ↔ List.Forall₂ (fun n v => v < 2 ^ n) (indexWidths m f.part) f.idx := by
  rw [indexWidths, List.forall₂_map_left_iff, List.forall₂_iff_get]
  simp only [BlockFields.idxCountOk, BlockFields.idxOk, beq_iff_eq, List.all_eq_true, List.mem_range, decide_eq_true_eq,
    List.length_range, List.get_eq_getElem, List.getElem_range, @eq_comm _ 16]
  refine and_congr_right fun hlen => forall₂_congr fun k hk => ?_
  have hk' : k < f.idx.length := by omega
  simp [hk']

/-- The fields of a block are well formed where each kind of field is. -/
theorem wf_iff (m : Fin 14) (f : BlockFields) :
    f.wf m = true ↔ f.epOk m = true ∧ f.partOk m = true ∧
      List.Forall₂ (fun n v => v < 2 ^ n) (indexWidths m f.part) f.idx := by
  rw [← idxOk_iff, BlockFields.wf, Bool.and_eq_true, Bool.and_eq_true, Bool.and_eq_true, and_assoc, and_assoc]

/-! ### A block of a mode, read and written -/

/-- The fields of a block after its mode code (30_encoding.md R70). -/
def fieldPieces (m : Fin 14) (f : BlockFields) : List (Nat × Nat) :=
  (layout m).map (fun row => row.piece f.ep) ++ partitionPieces m f.part ++ (indexWidths m f.part).zip f.idx

theorem blockPieces_eq (m : Fin 14) (f : BlockFields) :
    blockPieces m f = ((modeDesc m).codeLen, (modeDesc m).code) :: fieldPieces m f := rfl

theorem piecesWidth_append (ps qs : List (Nat × Nat)) : piecesWidth (ps ++ qs) = piecesWidth ps + piecesWidth qs := by
  simp [piecesWidth]

theorem piecesWidth_rows (rows : List FieldRow) (ep : Rgb (Quad Nat)) :
    piecesWidth (rows.map fun row => row.piece ep) = (rows.map FieldRow.width).sum := by
  rw [piecesWidth, List.map_map]
  rfl

theorem piecesWidth_partition (m : Fin 14) (p : BitVec 5) :
    piecesWidth (partitionPieces m p) = if (modeDesc m).twoRegions then 5 else 0 := by
  unfold partitionPieces
  split <;> rfl

/-- The pieces of a well-formed block fill it (30_encoding.md R70). -/
theorem piecesWidth_blockPieces {m : Fin 14} {f : BlockFields} (hf : f.wf m = true) :
    piecesWidth (blockPieces m f) = 128 := by
  obtain ⟨-, -, hidx⟩ := (wf_iff m f).1 hf
  have hindices : piecesWidth ((indexWidths m f.part).zip f.idx) = (indexWidths m f.part).sum := by
    rw [piecesWidth, List.map_fst_zip hidx.length_eq.le]
  rw [blockPieces_eq, piecesWidth_cons, fieldPieces, piecesWidth_append, piecesWidth_append, piecesWidth_rows,
    piecesWidth_partition, hindices, ← block_width m f.part]
  omega

/-- The cursor after the endpoint rows of a block of mode index `m`, where its partition number begins. -/
def partitionStart (m : Fin 14) : Nat := (modeDesc m).codeLen + ((layout m).map FieldRow.width).sum

/-- The cursor where the indices of a block of mode index `m` begin. -/
def indexStart (m : Fin 14) : Nat := partitionStart m + if (modeDesc m).twoRegions then 5 else 0

/-- The indices end with the block (30_encoding.md R70). -/
theorem indexStart_add (m : Fin 14) (p : BitVec 5) : indexStart m + (indexWidths m p).sum = 128 := block_width m p

/-- A block of mode index `m` is read by its rows, its partition number and its indices, each from where the last ends. -/
theorem readFields_eq_some_iff_reads (b : Block) (m : Fin 14) (f : BlockFields) :
    readFields b m (modeDesc m).codeLen = some (f, 128) ↔
      readRows b (layout m) (modeDesc m).codeLen (Rgb.all (Quad.all 0)) = some (f.ep, partitionStart m) ∧
        readPartition b m (partitionStart m) = some (f.part, indexStart m) ∧
        readIndices b (indexWidths m f.part) (indexStart m) =
          some (f.idx, indexStart m + (indexWidths m f.part).sum) := by
  have hroom : partitionStart m + 5 ≤ 128 := endpoints_end_le m
  obtain ⟨ep, hep⟩ : ∃ ep,
      readRows b (layout m) (modeDesc m).codeLen (Rgb.all (Quad.all 0)) = some (ep, partitionStart m) :=
    readRows_eq_some b (layout m) _ _ (layout_width_legal m) (show partitionStart m ≤ 128 by omega)
  obtain ⟨part, hpart⟩ : ∃ part, readPartition b m (partitionStart m) = some (part, indexStart m) :=
    readPartition_eq_some b m _ hroom
  obtain ⟨idx, hidx⟩ := readIndices_eq_some b (indexWidths m part) _ (indexWidths_legal m part) (indexStart_add m part).le
  constructor
  · intro h
    simp only [readFields, hep, hpart, hidx, Option.some.injEq, Prod.mk.injEq] at h
    obtain ⟨rfl, -⟩ := h
    exact ⟨hep, hpart, hidx⟩
  · rintro ⟨hep, hpart, hidx⟩
    simp only [readFields, hep, hpart, hidx, indexStart_add]

/-- The reads of a block of mode index `m` give the well-formed fields whose pieces it holds (41_bc6h.md R113, R114, R120). -/
theorem readFields_eq_some_iff (b : Block) (m : Fin 14) (f : BlockFields) :
    readFields b m (modeDesc m).codeLen = some (f, 128) ↔
      f.wf m = true ∧ HoldsAt b (modeDesc m).codeLen (fieldPieces m f) := by
  have hroom : partitionStart m + 5 ≤ 128 := endpoints_end_le m
  have hrows : readRows b (layout m) (modeDesc m).codeLen (Rgb.all (Quad.all 0)) = some (f.ep, partitionStart m) ↔ _ :=
    readRows_eq_some_iff b (layout_width_legal m) (show partitionStart m ≤ 128 by omega) (layout_apart m)
      (fun _ _ c e i _ => epBit_zero c e i) f.ep
  have hpart : readPartition b m (partitionStart m) = some (f.part, indexStart m) ↔ _ :=
    readPartition_eq_some_iff b m hroom f.part
  have hidx := readIndices_eq_some_iff b (indexWidths_legal m f.part) (indexStart_add m f.part).le f.idx
  have hpieces : HoldsAt b (modeDesc m).codeLen (fieldPieces m f) ↔
      HoldsAt b (modeDesc m).codeLen ((layout m).map fun row => row.piece f.ep) ∧
        HoldsAt b (partitionStart m) (partitionPieces m f.part) ∧
        HoldsAt b (indexStart m) ((indexWidths m f.part).zip f.idx) := by
    rw [fieldPieces, holdsAt_append, holdsAt_append, piecesWidth_append, piecesWidth_rows, piecesWidth_partition,
      and_assoc, ← Nat.add_assoc]
    rfl
  rw [readFields_eq_some_iff_reads, hrows, hpart, hidx, hpieces, wf_iff, agreeOff_layout_iff, ← epOk_iff,
    BlockFields.partOk]
  constructor
  · rintro ⟨⟨hrows, hep⟩, ⟨hp, hpart⟩, hi, hidx⟩
    exact ⟨⟨hep, hp, hi⟩, hrows, hpart, hidx⟩
  · rintro ⟨⟨hep, hp, hi⟩, hrows, hpart, hidx⟩
    exact ⟨⟨hrows, hep⟩, ⟨hp, hpart⟩, hi, hidx⟩

/-- The decoder reads from a block of a valid mode code the well-formed fields that the encoder writes as this block. -/
theorem readFields_iff_encodeBlock (b : Block) (m : Fin 14) (f : BlockFields) :
    (readModeCode b = some ((modeDesc m).code, (modeDesc m).codeLen) ∧
        readFields b m (modeDesc m).codeLen = some (f, 128)) ↔
      f.wf m = true ∧ encodeBlock m f = b := by
  rw [readModeCode_eq_some_iff, readFields_eq_some_iff, and_left_comm]
  refine and_congr_right fun hf => ?_
  rw [encodeBlock, ofNat_packPieces_eq_iff b (piecesWidth_blockPieces hf), blockPieces_eq, holdsAt_cons,
    Nat.shiftRight_zero, Nat.zero_add, Nat.mod_eq_of_lt (code_selfDelimiting m).1]

/-! ### The decoder of blocks -/

theorem encode_instrOfMode (m : Fin 14) (f : BlockFields) : encode (instrOfMode m f) = .block (encodeBlock m f) := by
  fin_cases m <;> rfl

theorem wf_instrOfMode (m : Fin 14) (f : BlockFields) : (instrOfMode m f).wf = f.wf m := by
  fin_cases m <;> rfl

/-- A well-formed block of a mode is read back from its encoding. -/
theorem decodeBlock_encodeBlock {m : Fin 14} {f : BlockFields} (hf : f.wf m = true) :
    decodeBlock (encodeBlock m f) = .ok (instrOfMode m f) := by
  obtain ⟨hcode, hfields⟩ := (readFields_iff_encodeBlock _ m f).2 ⟨hf, rfl⟩
  simp only [decodeBlock, parseBlock, hcode, (modeOfCode_eq_some_iff _ m).2 rfl, hfields]

/-- What a block decodes to: the row of the reserved codes, or the row of a mode, whose well-formed fields the encoder
writes as this block. -/
theorem decodeBlock_cases {b : Block} {i : Instr} (h : decodeBlock b = .ok i) :
    (∃ code, i = .bc6hModeRsv code) ∨ ∃ m f, i = instrOfMode m f ∧ f.wf m = true ∧ encodeBlock m f = b := by
  obtain ⟨code, hcode⟩ := readModeCode_eq_some b
  cases hmode : modeOfCode code with
  | none =>
    simp only [decodeBlock, parseBlock, hcode, hmode, Except.ok.injEq] at h
    exact .inl ⟨_, h.symm⟩
  | some m =>
    obtain ⟨f, hf⟩ := readFields_eq_some b m
    rw [← codeLen_of_modeOfCode hmode] at hcode
    simp only [decodeBlock, parseBlock, hcode, hmode, hf, Except.ok.injEq] at h
    obtain rfl := (modeOfCode_eq_some_iff code m).1 hmode
    exact .inr ⟨m, f, h.symm, (readFields_iff_encodeBlock b m f).1 ⟨hcode, hf⟩⟩

/-- A reserved code is read back from the block that holds it alone (30_encoding.md R74). -/
theorem decodeBlock_reserved : ∀ code ∈ reservedCodes, decodeBlock (code.setWidth 128) = .ok (.bc6hModeRsv code) := by
  intro code hcode
  simp only [reservedCodes, List.mem_cons, List.not_mem_nil, or_false] at hcode
  rcases hcode with rfl | rfl | rfl | rfl <;> rfl

/-! ### All instructions -/

/-- A command or a micro-operation is read back from its encoding. -/
theorem decode_encode_of_format_ne {i : Instr} (h : i.format ≠ .bc6hMode) : decode (encode i) = .ok i := by
  cases i
  case bc6hDec signed => exact (Laws.RowFormat.bc6hDec signed).2 h
  case bc6hDecF signed => exact (Laws.RowFormat.bc6hDecF signed).2 h
  case bc6hMode0 | bc6hMode1 | bc6hMode2 | bc6hMode3 | bc6hMode4 | bc6hMode5 | bc6hMode6 | bc6hMode7 | bc6hMode8
      | bc6hMode9 | bc6hMode10 | bc6hMode11 | bc6hMode12 | bc6hMode13 | bc6hModeRsv => exact absurd rfl h
  all_goals rfl

/-- The rows of format BC6H_MODE are those of the 14 modes and of the reserved codes. -/
theorem exists_instrOfMode {i : Instr} (h : i.format = .bc6hMode) :
    (∃ m f, i = instrOfMode m f) ∨ ∃ code, i = .bc6hModeRsv code := by
  cases i
  case bc6hModeRsv code => exact .inr ⟨code, rfl⟩
  case bc6hMode0 f => exact .inl ⟨0, f, rfl⟩
  case bc6hMode1 f => exact .inl ⟨1, f, rfl⟩
  case bc6hMode2 f => exact .inl ⟨2, f, rfl⟩
  case bc6hMode3 f => exact .inl ⟨3, f, rfl⟩
  case bc6hMode4 f => exact .inl ⟨4, f, rfl⟩
  case bc6hMode5 f => exact .inl ⟨5, f, rfl⟩
  case bc6hMode6 f => exact .inl ⟨6, f, rfl⟩
  case bc6hMode7 f => exact .inl ⟨7, f, rfl⟩
  case bc6hMode8 f => exact .inl ⟨8, f, rfl⟩
  case bc6hMode9 f => exact .inl ⟨9, f, rfl⟩
  case bc6hMode10 f => exact .inl ⟨10, f, rfl⟩
  case bc6hMode11 f => exact .inl ⟨11, f, rfl⟩
  case bc6hMode12 f => exact .inl ⟨12, f, rfl⟩
  case bc6hMode13 f => exact .inl ⟨13, f, rfl⟩
  all_goals exact nomatch h

end Sys2Proof
end

section
/-! SUPPORT. CMD words (30_encoding.md R80 to R82): which words decode, what the encoder writes, and what a write of CMD runs. -/

namespace Sys2Proof.Machine

open Sys2Proof

/-! ### The decoder -/

/-- A CMD word decodes exactly where OP is in the table, S stands with a BC6H command only, and RSV is 0
(30_encoding.md R82). -/
theorem decodeCmd_eq_ok_iff (w : Word) (i : Instr) :
    decodeCmd w = .ok i ↔ commandOfOp (cmdOp w).toNat (cmdS w) = some i ∧
      (cmdS w = true → opTakesSigned (cmdOp w).toNat = true) ∧ cmdRsv w = 0 := by
  unfold decodeCmd
  cases commandOfOp (cmdOp w).toNat (cmdS w) with
  | none => simp
  | some j =>
    simp only
    split_ifs with hsigned hrsv
    · exact iff_of_false nofun fun ⟨_, htakes, _⟩ => by simp_all
    · exact iff_of_false nofun fun ⟨_, _, h⟩ => hrsv h
    · simp_all

/-- The OP numbers of the table are the assigned ones (30_encoding.md R81). -/
theorem mem_assignedOps_of_commandOfOp {op : Nat} {signed : Bool} {i : Instr} (h : commandOfOp op signed = some i) :
    op ∈ assignedOps := by
  unfold commandOfOp at h
  split at h <;> cases h <;> decide

theorem isSome_commandOfOp : ∀ op ∈ assignedOps, ∀ signed, (commandOfOp op signed).isSome = true := by decide

theorem opTakesSigned_iff (op : Nat) : opTakesSigned op = true ↔ op = 0x01 ∨ op = 0x02 := by
  simp [opTakesSigned]

/-- The words the spec calls illegal are those that do not decode (30_encoding.md R82). -/
theorem illegalCmd_iff (w : Word) : IllegalCmd w ↔ ∀ i, decodeCmd w ≠ .ok i := by
  rw [← not_iff_not, not_forall_not]
  simp only [decodeCmd_eq_ok_iff, exists_and_right, opTakesSigned_iff, IllegalCmd, not_or, not_and, not_not]
  refine and_congr ⟨fun hop => ?_, fun ⟨i, hi⟩ => mem_assignedOps_of_commandOfOp hi⟩ (and_congr_left' ?_)
  · exact Option.isSome_iff_exists.1 (isSome_commandOfOp _ hop _)
  · rw [or_iff_not_imp_left]

/-! ### The encoder -/

/-- The encoder writes a command as the OP and S it was read from. -/
theorem encode_of_commandOfOp {op : Nat} {signed : Bool} {i : Instr} (h : commandOfOp op signed = some i)
    (hsigned : signed = true → opTakesSigned op = true) : encode i = .cmd (encodeCmd op signed) := by
  cases signed with
  | true =>
    obtain rfl | rfl := (opTakesSigned_iff op).1 (hsigned rfl)
    all_goals
      cases h
      rfl
  | false =>
    unfold commandOfOp at h
    split at h <;> cases h <;> rfl

/-- A CMD word without reserved bits is its OP and its S (30_encoding.md R80). -/
theorem encodeCmd_cmdOp_cmdS {w : Word} (hrsv : cmdRsv w = 0) : encodeCmd (cmdOp w).toNat (cmdS w) = w := by
  have hw := w.isLt
  have hhigh : w.toNat / 2 ^ 9 % 2 ^ 23 = 0 := by
    rw [← Nat.shiftRight_eq_div_pow, ← BitVec.extractLsb'_toNat]
    exact congrArg BitVec.toNat hrsv
  have hbit : cmdS w = decide (w.toNat / 2 ^ 8 % 2 = 1) := by
    rw [cmdS, ← BitVec.testBit_toNat, Nat.testBit_eq_decide_div_mod_eq]
  apply BitVec.eq_of_toNat_eq
  simp only [encodeCmd, cmdOp, hbit, BitVec.toNat_ofNat, BitVec.extractLsb'_toNat, Nat.shiftRight_zero, decide_eq_true_eq]
  split_ifs with hset
  · omega
  · omega

/-- What a CMD word decodes to is written back as the word. -/
theorem encode_of_decodeCmd {w : Word} {i : Instr} (h : decodeCmd w = .ok i) : encode i = .cmd w := by
  obtain ⟨hop, hsigned, hrsv⟩ := (decodeCmd_eq_ok_iff w i).1 h
  rw [encode_of_commandOfOp hop hsigned, encodeCmd_cmdOp_cmdS hrsv]

/-! ### A write of CMD -/

theorem runCmd_of_decodeCmd {w : Word} {i : Instr} (h : decodeCmd w = .ok i) (s : State) : runCmd w s = exec i s := by
  simp only [runCmd, h]

theorem runCmd_of_illegal {w : Word} (h : IllegalCmd w) (s : State) : runCmd w s = .next (refuse .badOp s) := by
  cases hdecode : decodeCmd w with
  | error e => simp only [runCmd, hdecode]
  | ok i => exact absurd hdecode ((illegalCmd_iff w).1 h i)

end Sys2Proof.Machine
end

section
/-! The statements of the family of 30_encoding.md, settled. -/

namespace Sys2Proof.Machine

open Sys2Proof

/-- Settles O23: the encoder writes each field of a block at the place where the reader takes it. -/
theorem decodeOfEncodeIsTheInstruction : Obligations.DecodeOfEncodeIsTheInstruction := by
  intro i hwf
  by_cases hformat : i.format = .bc6hMode
  · obtain ⟨m, f, rfl⟩ | ⟨code, rfl⟩ := exists_instrOfMode hformat
    · rw [encode_instrOfMode]
      exact decodeBlock_encodeBlock (wf_instrOfMode m f ▸ hwf)
    · exact decodeBlock_reserved code (List.contains_iff_mem.1 hwf)
  · exact decode_encode_of_format_ne hformat

/-- Settles O2: a word is illegal exactly where it does not decode. -/
theorem illegalCmdWordRefusesBadOp : Obligations.IllegalCmdWordRefusesBadOp := by
  intro s w rest hpending
  rw [step_of_cmdWrite hpending]
  refine ⟨fun hillegal => runCmd_of_illegal hillegal _, fun hlegal => ?_⟩
  rw [illegalCmd_iff, not_forall_not] at hlegal
  obtain ⟨i, hi⟩ := hlegal
  exact ⟨i, hi, format_of_decodeCmd hi, runCmd_of_decodeCmd hi _⟩

/-- Settles O19: the two reads of a long code give the bits of one. -/
theorem modeCodeIsTwoOrFiveBits : Obligations.ModeCodeIsTwoOrFiveBits := by
  intro b
  simp only [BitVec.extractLsb'_toNat, Nat.shiftRight_zero, or_shiftLeft_reads, readModeCode_eq]
  exact ⟨fun hshort => if_pos hshort, fun hlong => ⟨if_neg (Nat.not_lt.2 hlong), trivial⟩⟩

/-- Settles O22: a CMD word is its OP and its S, and the reader takes every field of a block where the encoder writes it. -/
theorem encodeOfDecodeGivesBackTheBits : Obligations.EncodeOfDecodeGivesBackTheBits := by
  refine ⟨fun w i h => encode_of_decodeCmd h, fun b i h hvalid => ?_⟩
  obtain ⟨code, rfl⟩ | ⟨m, f, rfl, -, hb⟩ := decodeBlock_cases h
  · exact absurd rfl (hvalid code)
  · rw [encode_instrOfMode, hb]

/-- Settles O1: a word that decodes runs. -/
theorem cmdWriteRunsDecodedCommand : Obligations.CmdWriteRunsDecodedCommand := by
  intro s w i rest hpending hdecode
  rw [step_of_cmdWrite hpending, runCmd_of_decodeCmd hdecode]

/-- Settles O4: each action is taken from the queue and does what it says; reset sets every register to 0. -/
theorem hostBufferActionsAndIdle : Obligations.HostBufferActionsAndIdle := by
  intro s b d o rest
  refine ⟨step_of_idle, step_of_pending, step_of_pending, step_of_pending, fun h => ⟨_, step_of_pending h, ?_⟩⟩
  exact ⟨rfl, rfl, rfl, rfl, rfl, rfl, rfl, rfl, rfl, rfl, rfl, rfl⟩

/-- Settles O20: the header's widths add up, and the rows of a layout store each bit once. -/
theorem layoutsFillTheHeaderExactly : Obligations.LayoutsFillTheHeaderExactly := by
  refine fun m => ⟨header_width m, fun c e => ?_⟩
  have hperm := layoutBits_perm m c e
  rwa [storedWidth, apply_ite List.range] at hperm

/-- Settles O24: the decoder computes each instruction. -/
theorem writtenWordsDecode : Obligations.WrittenWordsDecode :=
  ⟨rfl, rfl, rfl, rfl, rfl, rfl, rfl, rfl, rfl, rfl, rfl⟩

end Sys2Proof.Machine
end

section
/-! SUPPORT. The micro-operations of the bit reader (40_bitstream.md R100 to R102): what each read delivers, and what a run
of reads gives together. -/

namespace Sys2Proof

/-! ### The bits a read answers -/

/-- A read answers with the block bits at the cursor and nothing above its width (40_bitstream.md R100). -/
theorem testBit_of_readBits {b : Block} {cur n v : Nat} (h : readBits b cur n = some v) (i : Nat) :
    v.testBit i = (decide (i < n) && b.getLsbD (cur + i)) := by
  by_cases hi : i < n
  · simp [hi, testBit_readBits b cur n v i h hi]
  · have hhigh : 2 ^ n ≤ 2 ^ i := Nat.pow_le_pow_right Nat.two_pos (Nat.not_lt.1 hi)
    simp [hi, Nat.testBit_lt_two_pow ((readBits_lt b cur n v h).trans_le hhigh)]

/-- A reversed read answers with the same bits, the first one highest (40_bitstream.md R101). -/
theorem testBit_of_readBitsR {b : Block} {cur n v : Nat} (h : readBitsR b cur n = some v) (i : Nat) :
    v.testBit i = (decide (i < n) && b.getLsbD (cur + (n - 1 - i))) := by
  obtain ⟨raw, hraw, rfl⟩ := Option.map_eq_some_iff.1 h
  rw [testBit_reverseBits]
  by_cases hi : i < n
  · have hmirror : n - 1 - i < n := by omega
    simp [hi, testBit_of_readBits hraw, hmirror]
  · simp [hi]

/-- A reversed read refuses where the read does (40_bitstream.md R101). -/
theorem readBitsR_eq_none (b : Block) (cur n : Nat) : readBitsR b cur n = none ↔ n < 1 ∨ 16 < n ∨ 128 < cur + n := by
  rw [readBitsR, Option.map_eq_none_iff, readBits_eq_none]

/-! ### Reads that fill the block -/

/-- A block that holds pieces of its whole width is their concatenation. -/
theorem packPieces_eq_toNat {b : Block} {ps : List (Nat × Nat)} (hfull : piecesWidth ps = 128) (h : HoldsAt b 0 ps) :
    packPieces ps = b.toNat := by
  rw [HoldsAt, hfull, Nat.shiftRight_zero, Nat.mod_eq_of_lt b.isLt] at h
  exact h.symm

namespace Machine

/-! ### The micro-operations -/

theorem exec_readBits (n : Nat) (s : State) :
    exec (.readBits n) s = .next (deliverRead n (readBits s.work.blk s.work.cur n) s) := rfl

theorem exec_readBitsR (n : Nat) (s : State) :
    exec (.readBitsR n) s = .next (deliverRead n (readBitsR s.work.blk s.work.cur n) s) := rfl

theorem deliverRead_some (n v : Nat) (s : State) :
    deliverRead n (some v) s = { s with work := { s.work with cur := s.work.cur + n, rdata := BitVec.ofNat 16 v } } := rfl

/-- A read that answers nothing is RF_OVERRUN (40_bitstream.md R100, 60_exceptions.md R201). -/
theorem deliverRead_none (n : Nat) (s : State) : deliverRead n none s = { s with status := 0x00000052#32 } := by
  rw [deliverRead, refuse, statusRefused_eq]

/-- The delivery register has room for every legal width: it holds the bits of the value. -/
theorem getLsbD_delivered {v : Nat} {bit : Nat → Bool} {n : Nat} (hle : n ≤ 16)
    (hbits : ∀ i, v.testBit i = (decide (i < n) && bit i)) (i : Nat) :
    (BitVec.ofNat 16 v).getLsbD i = (decide (i < n) && bit i) := by
  rw [BitVec.getLsbD_ofNat, hbits]
  by_cases hi : i < n
  · simp [hi, hi.trans_le hle]
  · simp [hi]

/-- What a micro-operation does, whatever bits its read answers with: it delivers them and advances CUR by the width, or it
refuses where the read answers nothing (40_bitstream.md R100, R101). -/
theorem exec_delivers {i : Instr} {n : Nat} {s : State} {answer : Option Nat} {bit : Nat → Bool}
    (hexec : exec i s = .next (deliverRead n answer s))
    (hnone : answer = none ↔ n < 1 ∨ 16 < n ∨ 128 < s.work.cur + n)
    (hsome : ∀ v, answer = some v → ∀ k, v.testBit k = (decide (k < n) && bit k)) :
    (1 ≤ n → n ≤ 16 → s.work.cur + n ≤ 128 →
      ∃ v : BitVec 16, exec i s = .next { s with work := { s.work with cur := s.work.cur + n, rdata := v } } ∧
        ∀ k, v.getLsbD k = (decide (k < n) && bit k)) ∧
    (n < 1 ∨ 16 < n ∨ 128 < s.work.cur + n → exec i s = .next { s with status := 0x00000052#32 }) := by
  constructor
  · intro hpos hle hend
    have hanswers : answer ≠ none := fun h => by
      have hrefused := hnone.1 h
      omega
    obtain ⟨v, rfl⟩ := Option.ne_none_iff_exists'.1 hanswers
    exact ⟨BitVec.ofNat 16 v, hexec.trans (congrArg _ (deliverRead_some n v s)), getLsbD_delivered hle (hsome v rfl)⟩
  · intro hrefused
    rw [hexec, hnone.2 hrefused, deliverRead_none]

end Machine
end Sys2Proof
end

section
/-! SUPPORT. How the reads of a block end (40_bitstream.md R100, 41_bc6h.md R111 to R113). -/

namespace Sys2Proof

/-! ### The mode code -/

/-- A mode code fits the 5-bit register MCODE (30_encoding.md R71). -/
theorem modeDesc_code_lt (m : Fin 14) : (modeDesc m).code < 2 ^ 5 := by
  obtain ⟨hlt, ⟨hlen, -⟩ | ⟨hlen, -⟩⟩ := code_selfDelimiting m
  all_goals
    rw [hlen] at hlt
    omega

/-- The two short codes both select a mode (30_encoding.md R72). -/
theorem modeOfCode_short_ne_none : ∀ code < 2, modeOfCode code ≠ none := by decide

/-- The long codes that select no mode are the reserved ones (30_encoding.md R74). -/
theorem reserved_of_modeOfCode_eq_none :
    ∀ code < 2 ^ 5, 2 ≤ code % 2 ^ 2 → modeOfCode code = none → reservedCodes.contains (BitVec.ofNat 5 code) = true := by
  decide

/-- A mode code read that selects no mode is a reserved code, and it ends at bit 5 (30_encoding.md R71, R74). -/
theorem readModeCode_reserved {b : Block} {code cur : Nat} (hread : readModeCode b = some (code, cur))
    (hmode : modeOfCode code = none) : cur = 5 ∧ reservedCodes.contains (BitVec.ofNat 5 code) = true := by
  rw [readModeCode_eq] at hread
  split_ifs at hread with hshort
  · cases hread
    exact absurd hmode (modeOfCode_short_ne_none _ hshort)
  · cases hread
    exact ⟨rfl, reserved_of_modeOfCode_eq_none _ (by omega) (by omega) hmode⟩

/-! ### The block -/

/-- A block parses in one of two ways: its code selects no mode and nothing follows it, or it selects a mode whose fields,
well formed, end with the block. -/
theorem parseBlock_cases (b : Block) :
    (∃ code cur, readModeCode b = some (code, cur) ∧ modeOfCode code = none ∧
      parseBlock b = some ⟨BitVec.ofNat 5 code, none, BlockFields.clear, cur⟩) ∨
    ∃ m f, f.wf m = true ∧ parseBlock b = some ⟨BitVec.ofNat 5 (modeDesc m).code, some m, f, 128⟩ := by
  obtain ⟨code, hcode⟩ := readModeCode_eq_some b
  cases hmode : modeOfCode code with
  | none => exact .inl ⟨code, _, hcode, hmode, by simp only [parseBlock, hcode, hmode]⟩
  | some m =>
    obtain ⟨f, hf⟩ := readFields_eq_some b m
    rw [← codeLen_of_modeOfCode hmode] at hcode
    obtain rfl := (modeOfCode_eq_some_iff code m).1 hmode
    exact .inr ⟨m, f, ((readFields_eq_some_iff b m f).1 hf).1, by simp only [parseBlock, hcode, hmode, hf]⟩

end Sys2Proof
end

section
/-! The statements of the family of 40_bitstream.md, settled. -/

namespace Sys2Proof.Machine

open Sys2Proof

/-- Settles O16: the read answers with the bits at the cursor, which RDATA has room for. -/
theorem readBitsDeliversBlockBits : Obligations.ReadBitsDeliversBlockBits := by
  intro n s
  exact exec_delivers (exec_readBits n s) (readBits_eq_none ..) fun _ => testBit_of_readBits

/-- Settles O17, as O16 with the bits in reverse order. -/
theorem readBitsRDeliversReversedBits : Obligations.ReadBitsRDeliversReversedBits := by
  intro n s
  exact exec_delivers (exec_readBitsR n s) (readBitsR_eq_none ..) fun _ => testBit_of_readBitsR

/-- Settles O18: the block holds the values read side by side, and they are as wide as the block. -/
theorem readsSummingTo128AreLossless : Obligations.ReadsSummingTo128AreLossless := by
  intro b ns hwidth hsum
  have hend : 0 + ns.sum ≤ 128 := by omega
  obtain ⟨vs, hread⟩ := readIndices_eq_some b ns 0 hwidth hend
  obtain ⟨hfit, hholds⟩ := (readIndices_eq_some_iff b hwidth hend vs).1 hread
  have hlen : ns.length = vs.length := hfit.length_eq
  have hfull : piecesWidth (ns.zip vs) = 128 := by rw [piecesWidth, List.map_fst_zip hlen.le, hsum]
  rw [hsum] at hread
  exact ⟨vs, hread, hlen.symm, packPieces_eq_toNat hfull hholds⟩

/-- Settles O21: the code is reserved and the reads end with it, or it selects a mode whose fields fill the block. -/
theorem everyBlockParsesToTheEnd : Obligations.EveryBlockParsesToTheEnd := by
  intro b
  obtain ⟨code, cur, hread, hmode, hparse⟩ | ⟨m, f, hwf, hparse⟩ := parseBlock_cases b
  · exact ⟨_, hparse, nofun, fun _ => readModeCode_reserved hread hmode⟩
  · refine ⟨_, hparse, fun m' hm' => ?_, nofun⟩
    obtain rfl := Option.some.inj hm'
    exact ⟨rfl, hwf, Nat.mod_eq_of_lt (modeDesc_code_lt m)⟩

end Sys2Proof.Machine
end

section
/-! SUPPORT. The endpoints of one channel through the colour pipeline (41_bc6h.md R115 to R119): which endpoints each step
changes, what it makes of them, and the range they are then in (R127). -/

namespace Sys2Proof

theorem Quad.get_map {α β : Type} (f : α → β) (q : Quad α) (e : EpIx) : (q.map f).get e = f (q.get e) := by
  cases e <;> rfl

theorem Rgb.get_map {α β : Type} (f : α → β) (p : Rgb α) (c : Chan) : (p.map f).get c = f (p.get c) := by
  cases c <;> rfl

namespace Machine

/-! ### The endpoints in use -/

/-- Endpoint `e` of a block is in use: w and x always, y and z where the block has two regions (41_bc6h.md R116, NE). -/
def InUse (two : Bool) (e : EpIx) : Prop := two = true ∨ e = .w ∨ e = .x

theorem mapDeltas_w (two : Bool) (f : Int → Int) (q : Quad Int) : (mapDeltas two f q).w = q.w := by
  cases two <;> rfl

/-- A step on the deltas changes the endpoints in use other than the base. -/
theorem get_mapDeltas {two : Bool} {e : EpIx} (huse : InUse two e) (hdelta : e ≠ .w) (f : Int → Int) (q : Quad Int) :
    (mapDeltas two f q).get e = f (q.get e) := by
  cases two with
  | true => cases e with
    | w => exact absurd rfl hdelta
    | x | y | z => rfl
  | false => cases e with
    | w => exact absurd rfl hdelta
    | x => rfl
    | y | z => simp [InUse] at huse

/-- A step on the endpoints in use, written out. -/
theorem mapInUse_eq (two : Bool) (f : Int → Int) (q : Quad Int) :
    mapInUse two f q = if two then ⟨f q.w, f q.x, f q.y, f q.z⟩ else ⟨f q.w, f q.x, q.y, q.z⟩ := by
  cases two <;> rfl

theorem get_mapInUse {two : Bool} {e : EpIx} (huse : InUse two e) (f : Int → Int) (q : Quad Int) :
    (mapInUse two f q).get e = f (q.get e) := by
  by_cases he : e = .w
  · subst he
    exact mapDeltas_w two f _
  · rw [mapInUse, get_mapDeltas huse he]
    cases e with
    | w => exact absurd rfl he
    | x | y | z => rfl

/-! ### From raw fields to endpoints of the base width -/

/-- The modes whose x, y, z are no deltas are 9 and 10 (30_encoding.md R76). -/
theorem transformed_eq_false_iff : ∀ m, (modeDesc m).transformed = false ↔ m = 9 ∨ m = 10 := by decide

/-- In those modes x, y and z have the base width (30_encoding.md R76). -/
theorem delta_eq_wb_of_direct {m : Fin 14} (hdirect : (modeDesc m).transformed = false) (c : Chan) :
    (modeDesc m).delta c = (modeDesc m).wb := by
  obtain rfl | rfl := (transformed_eq_false_iff m).1 hdirect
  all_goals cases c <;> rfl

theorem width_of_ne_w {e : EpIx} (h : e ≠ .w) (d : ModeDesc) (c : Chan) : d.width c e = d.delta c := by
  cases e with
  | w => exact absurd rfl h
  | x | y | z => rfl

theorem wb_le : ∀ m, (modeDesc m).wb ≤ 16 := by decide

/-- Only mode index 13 has endpoints of 16 bits (30_encoding.md R76). -/
theorem wb_lt_of_ne : ∀ m, m ≠ 13 → (modeDesc m).wb < 16 := by decide

/-- The base after the sign extension (41_bc6h.md R115). -/
def signedBase (d : ModeDesc) (signed : Bool) (w : Int) : Int := if signed then sext d.wb w else w

theorem signExtendBase_eq (d : ModeDesc) (signed : Bool) (q : Quad Int) :
    signExtendBase d signed q = { q with w := signedBase d signed q.w } := by
  cases signed <;> rfl

theorem signExtendDeltas_w (d : ModeDesc) (c : Chan) (signed : Bool) (q : Quad Int) :
    (signExtendDeltas d c signed q).w = q.w := by
  unfold signExtendDeltas
  split
  · exact mapDeltas_w ..
  · rfl

/-- The steps in a transformed mode: the deltas are extended, whatever S is, and added to the base (41_bc6h.md R115 to
R117). -/
theorem reconstruct_of_transformed {d : ModeDesc} (h : d.transformed = true) (c : Chan) (signed : Bool) (q : Quad Int) :
    reconstruct d c signed q =
      mapDeltas d.twoRegions (transformInverse d.wb signed (signedBase d signed q.w))
        (mapDeltas d.twoRegions (sext (d.delta c)) { q with w := signedBase d signed q.w }) := by
  rw [reconstruct, transformInverses, if_pos h, signExtendDeltas_w, signExtendBase_eq, signExtendDeltas, h, Bool.true_or,
    if_pos rfl]

/-- The steps in a direct mode: nothing is added, and the endpoints are extended where S = 1 (41_bc6h.md R115 to R117). -/
theorem reconstruct_of_direct {d : ModeDesc} (h : d.transformed = false) (c : Chan) (signed : Bool) (q : Quad Int) :
    reconstruct d c signed q =
      if signed then mapDeltas d.twoRegions (sext (d.delta c)) { q with w := signedBase d signed q.w } else q := by
  rw [reconstruct, transformInverses, h, if_neg Bool.false_ne_true, signExtendBase_eq, signExtendDeltas, h, Bool.false_or]
  cases signed <;> rfl

/-- The integers of `n` bits, of the two's complement range where S = 1. -/
def WidthRange (n : Nat) (signed : Bool) (v : Int) : Prop :=
  if signed then -(2 : Int) ^ (n - 1) ≤ v ∧ v < (2 : Int) ^ (n - 1) else 0 ≤ v ∧ v < (2 : Int) ^ n

theorem widthRange_sext (n : Nat) (v : Int) : WidthRange n true (sext n v) := ⟨le_sext n v, sext_lt n v⟩

theorem widthRange_natCast {n k : Nat} (h : k < 2 ^ n) : WidthRange n false (k : Int) :=
  ⟨Int.natCast_nonneg k, by exact_mod_cast h⟩

/-- The sums of the transform inverse are cut to the base width (41_bc6h.md R117). -/
theorem widthRange_transformInverse (wb : Nat) (signed : Bool) (base delta : Int) :
    WidthRange wb signed (transformInverse wb signed base delta) := by
  cases signed with
  | true => exact widthRange_sext wb _
  | false => exact ⟨Int.emod_nonneg _ (by positivity), Int.emod_lt_of_pos _ (by positivity)⟩

/-- Only its own sign extension changes the base. -/
theorem reconstruct_w (d : ModeDesc) (c : Chan) (signed : Bool) (q : Quad Int) :
    (reconstruct d c signed q).w = signedBase d signed q.w := by
  cases hmode : d.transformed with
  | true => simp only [reconstruct_of_transformed hmode, mapDeltas_w]
  | false =>
    rw [reconstruct_of_direct hmode]
    cases signed with
    | true => exact mapDeltas_w ..
    | false => rfl

/-- After the transform inverse every endpoint in use has the base width (41_bc6h.md R127), if its field has its width. -/
theorem widthRange_reconstruct {m : Fin 14} {c : Chan} {raw : Quad Nat} (signed : Bool)
    (hraw : ∀ e, InUse (modeDesc m).twoRegions e → raw.get e < 2 ^ (modeDesc m).width c e) {e : EpIx}
    (huse : InUse (modeDesc m).twoRegions e) :
    WidthRange (modeDesc m).wb signed ((reconstruct (modeDesc m) c signed (raw.map Int.ofNat)).get e) := by
  by_cases he : e = .w
  · subst he
    rw [Quad.get, reconstruct_w]
    cases signed with
    | true => exact widthRange_sext ..
    | false => exact widthRange_natCast (hraw .w huse)
  · cases hmode : (modeDesc m).transformed with
    | true =>
      rw [reconstruct_of_transformed hmode, get_mapDeltas huse he]
      exact widthRange_transformInverse ..
    | false =>
      rw [reconstruct_of_direct hmode]
      cases signed with
      | true =>
        rw [if_pos rfl, get_mapDeltas huse he, delta_eq_wb_of_direct hmode]
        exact widthRange_sext ..
      | false =>
        rw [if_neg Bool.false_ne_true, Quad.get_map, ← delta_eq_wb_of_direct hmode c, ← width_of_ne_w he]
        exact widthRange_natCast (hraw e huse)

/-! ### Unquantize -/

/-- The unsigned path, case by case (41_bc6h.md R118). -/
theorem unquantize_false_eq (bits : Nat) (v : Int) :
    unquantize bits false v =
      if 15 ≤ bits then v else if v = 0 then 0 else if v = (2 : Int) ^ bits - 1 then 65535
      else (v * 65536 + 32768) / (2 : Int) ^ bits := rfl

/-- The unsigned path stays in 16 bits: below the largest value, the quotient does (41_bc6h.md R118). -/
theorem unquantize_false_mem_Icc {bits : Nat} {v : Int} (hbits : bits ≤ 16) (hv : WidthRange bits false v) :
    unquantize bits false v ∈ Set.Icc 0 65535 := by
  obtain ⟨hlow, hhigh⟩ : 0 ≤ v ∧ v < (2 : Int) ^ bits := hv
  rw [unquantize_false_eq]
  split_ifs with hwide hzero hmax
  · have hpow : (2 : Int) ^ bits ≤ 2 ^ 16 := pow_le_pow_right₀ (by decide) hbits
    exact ⟨hlow, by omega⟩
  · decide
  · decide
  · refine ⟨Int.ediv_nonneg (by omega) (by positivity), Int.le_of_lt_add_one ?_⟩
    rw [Int.ediv_lt_iff_lt_mul (by positivity)]
    omega

/-- The magnitude of the signed path stays in 15 bits (41_bc6h.md R119). -/
theorem unquantizeMagnitude_mem_Icc (bits : Nat) {a : Int} (ha : 0 ≤ a) :
    unquantizeMagnitude bits a ∈ Set.Icc 0 32767 := by
  unfold unquantizeMagnitude asr
  split_ifs with hzero hmax
  · decide
  · decide
  · refine ⟨Int.ediv_nonneg (by omega) (by positivity), Int.le_of_lt_add_one ?_⟩
    rw [Int.ediv_lt_iff_lt_mul (by positivity)]
    omega

/-- The signed path below 16 bits: the sign of the value over a magnitude (41_bc6h.md R119). -/
theorem unquantize_true_eq {bits : Nat} (hbits : bits < 16) (v : Int) :
    unquantize bits true v = if v < 0 then -unquantizeMagnitude bits |v| else unquantizeMagnitude bits |v| := by
  rw [← Int.natCast_natAbs]
  exact if_neg (Nat.not_le.2 hbits)

theorem unquantize_true_of_le {bits : Nat} (hbits : 16 ≤ bits) (v : Int) : unquantize bits true v = v :=
  if_pos hbits

/-- Below 16 bits the signed path gives both signs the same 15-bit magnitudes (41_bc6h.md R119). -/
theorem unquantize_true_mem_Icc_of_lt {bits : Nat} (hbits : bits < 16) (v : Int) :
    unquantize bits true v ∈ Set.Icc (-32767) 32767 := by
  obtain ⟨hlow, hhigh⟩ := unquantizeMagnitude_mem_Icc bits (abs_nonneg v)
  rw [unquantize_true_eq hbits, Set.mem_Icc]
  split <;> omega

/-- The signed path stays in 16 bits (41_bc6h.md R119). -/
theorem unquantize_true_mem_Icc {bits : Nat} {v : Int} (hbits : bits ≤ 16) (hv : WidthRange bits true v) :
    unquantize bits true v ∈ Set.Icc (-32768) 32767 := by
  obtain hlt | rfl := hbits.lt_or_eq
  · exact Set.Icc_subset_Icc_left (by decide) (unquantize_true_mem_Icc_of_lt hlt v)
  · rw [unquantize_true_of_le le_rfl]
    exact ⟨hv.1, Int.le_of_lt_add_one hv.2⟩

end Machine
end Sys2Proof
end

section
/-! SUPPORT. The pixels of a block (41_bc6h.md R120 to R124): the interpolation, Finish, and what H holds. -/

namespace Sys2Proof.Machine

open Sys2Proof

/-! ### Interp (41_bc6h.md R123) -/

theorem interp_eq (a b : Int) (wt : Nat) : interp a b wt = (a * (64 - wt) + b * wt + 32) / 64 := rfl

theorem interp_zero (a b : Int) : interp a b 0 = a := by
  simp only [interp_eq, Nat.cast_zero]
  omega

theorem interp_sixtyFour (a b : Int) : interp a b 64 = b := by
  simp only [interp_eq, Nat.cast_ofNat]
  omega

/-- A lower bound of both ends bounds the result: the weights sum to 64, and the rounding only adds. -/
theorem le_interp {lo a b : Int} {wt : Nat} (hwt : wt ≤ 64) (ha : lo ≤ a) (hb : lo ≤ b) : lo ≤ interp a b wt := by
  have hsum : lo * (64 - wt) + lo * wt ≤ a * (64 - wt) + b * wt :=
    add_le_add (mul_le_mul_of_nonneg_right ha (by omega)) (mul_le_mul_of_nonneg_right hb (by omega))
  rw [← mul_add, sub_add_cancel] at hsum
  rw [interp_eq]
  omega

/-- An upper bound of both ends bounds the result: the rounding adds half a unit and drops the fraction. -/
theorem interp_le {hi a b : Int} {wt : Nat} (hwt : wt ≤ 64) (ha : a ≤ hi) (hb : b ≤ hi) : interp a b wt ≤ hi := by
  have hsum : a * (64 - wt) + b * wt ≤ hi * (64 - wt) + hi * wt :=
    add_le_add (mul_le_mul_of_nonneg_right ha (by omega)) (mul_le_mul_of_nonneg_right hb (by omega))
  rw [← mul_add, sub_add_cancel] at hsum
  rw [interp_eq]
  omega

theorem interp_mem_Icc {lo hi a b : Int} {wt : Nat} (hwt : wt ≤ 64) (ha : a ∈ Set.Icc lo hi) (hb : b ∈ Set.Icc lo hi) :
    interp a b wt ∈ Set.Icc lo hi :=
  ⟨le_interp hwt ha.1 hb.1, interp_le hwt ha.2 hb.2⟩

/-! ### Finish (41_bc6h.md R124) -/

/-- The unsigned path is a floor division. -/
theorem toNat_finish_false {v : Int} (hv : v ∈ Set.Icc 0 65535) : ((finish false v).toNat : Int) = v * 31 / 64 := by
  obtain ⟨hlow, hhigh⟩ := hv
  have hfinish : finish false v = BitVec.ofInt 16 (v * 31 / 64) := rfl
  rw [hfinish, BitVec.toNat_ofInt]
  omega

/-- The signed path: a floor division of the magnitude, with a sign bit above it where it is not 0. -/
theorem finish_true_eq (v : Int) :
    finish true v =
      if v < 0 then if -v * 31 / 32 = 0 then 0 else BitVec.ofNat 16 (2 ^ 15 ||| (-v * 31 / 32).toNat)
      else BitVec.ofInt 16 (v * 31 / 32) := by
  simp only [finish, asr, if_true, show (2 : Int) ^ 5 = 32 from rfl]
  by_cases hneg : v < 0
  · simp only [if_pos hneg, neg_neg]
    by_cases hmag : -v * 31 / 32 = 0
    · rw [hmag]
      rfl
    · rw [if_pos (by omega), if_neg hmag]
      rfl
  · simp only [if_neg hneg, if_neg (show ¬ v * 31 / 32 < 0 by omega)]

theorem toNat_finish_true_of_nonneg {v : Int} (hv : v ∈ Set.Icc 0 32767) :
    ((finish true v).toNat : Int) = v * 31 / 32 := by
  obtain ⟨hlow, hhigh⟩ := hv
  rw [finish_true_eq, if_neg (not_lt.2 hlow), BitVec.toNat_ofInt]
  omega

theorem finish_true_of_magnitude_zero {v : Int} (hneg : v < 0) (hzero : -v * 31 / 32 = 0) : finish true v = 0 := by
  rw [finish_true_eq, if_pos hneg, if_pos hzero]

theorem toNat_finish_true_of_neg {v : Int} (hv : -32768 ≤ v) (hneg : v < 0) (hmag : -v * 31 / 32 ≠ 0) :
    ((finish true v).toNat : Int) = 32768 + -v * 31 / 32 := by
  have hbit (n : Nat) (hn : n < 2 ^ 15) : 2 ^ 15 ||| n = 2 ^ 15 + n := by
    rw [← Nat.mul_one (2 ^ 15), Nat.two_pow_add_eq_or_of_lt hn]
  rw [finish_true_eq, if_pos hneg, if_neg hmag, BitVec.toNat_ofNat, hbit _ (by omega)]
  omega

/-- What Finish gives in the signed path: the floor of 31/32 of the magnitude, under a sign bit where the value is negative
and its magnitude not 0. -/
theorem finish_true_cases {v : Int} (hv : v ∈ Set.Icc (-32768) 32767) :
    (0 ≤ v ∧ ((finish true v).toNat : Int) = v * 31 / 32) ∨
    (v < 0 ∧ -v * 31 / 32 = 0 ∧ (finish true v).toNat = 0) ∨
    (v < 0 ∧ -v * 31 / 32 ≠ 0 ∧ ((finish true v).toNat : Int) = 32768 + -v * 31 / 32) := by
  obtain ⟨hlow, hhigh⟩ := hv
  by_cases hneg : v < 0
  · by_cases hmag : -v * 31 / 32 = 0
    · exact .inr (.inl ⟨hneg, hmag, by rw [finish_true_of_magnitude_zero hneg hmag]; rfl⟩)
    · exact .inr (.inr ⟨hneg, hmag, toNat_finish_true_of_neg hlow hneg hmag⟩)
  · exact .inl ⟨not_lt.1 hneg, toNat_finish_true_of_nonneg ⟨not_lt.1 hneg, hhigh⟩⟩

/-- The magnitude of infinity comes from -0x8000 alone (41_bc6h.md R124). -/
theorem finish_true_magnitude_iff {v : Int} (hv : v ∈ Set.Icc (-32768) 32767) :
    (finish true v).toNat % 0x8000 = 0x7C00 ↔ v = -32768 := by
  obtain ⟨hlow, hhigh⟩ := id hv
  obtain ⟨_, _⟩ | ⟨_, _, _⟩ | ⟨_, _, _⟩ := finish_true_cases hv <;> omega

theorem halfInRange_iff (h : Half) :
    halfInRange h = true ↔ h.toNat ≤ 0x7BFF ∨ 0x8001 ≤ h.toNat ∧ h.toNat ≤ 0xFC00 := by
  simp [halfInRange]

/-- The values Finish is given after unquantize and interpolation (41_bc6h.md R127). -/
def finishDomain (signed : Bool) : Set Int := Set.Icc (if signed then -32768 else 0) (if signed then 32767 else 65535)

/-- On all of them it stays in its range (41_bc6h.md R124). -/
theorem halfInRange_finish {signed : Bool} {v : Int} (hv : v ∈ finishDomain signed) :
    halfInRange (finish signed v) = true := by
  rw [halfInRange_iff]
  cases signed with
  | false =>
    have hfinish := toNat_finish_false hv
    obtain ⟨hlow, hhigh⟩ : 0 ≤ v ∧ v ≤ 65535 := hv
    omega
  | true =>
    obtain ⟨hlow, hhigh⟩ : -32768 ≤ v ∧ v ≤ 32767 := id hv
    obtain ⟨_, _⟩ | ⟨_, _, _⟩ | ⟨_, _, _⟩ := finish_true_cases hv <;> omega

/-! ### H (41_bc6h.md R110, R120) -/

/-- An entry of a table read with default 0 is bounded as the table is. -/
theorem getD_zero_le {table : List Nat} {bound : Nat} (h : ∀ w ∈ table, w ≤ bound) (idx : Nat) :
    table.getD idx 0 ≤ bound := by
  rw [List.getD_eq_getElem?_getD]
  cases hget : table[idx]? with
  | none => exact Nat.zero_le bound
  | some w => exact h w (List.mem_of_getElem? hget)

/-- No weight exceeds 64, whatever the index (41_bc6h.md R122). -/
theorem weightOf_le (m : Fin 14) (idx : Nat) : weightOf m idx ≤ 64 := by
  unfold weightOf
  split
  · exact getD_zero_le (by decide) idx
  · exact getD_zero_le (by decide) idx

/-- Both ends of a pixel's subset are endpoints in use (41_bc6h.md R120). -/
theorem subsetEnds_subsetOf (d : ModeDesc) (part : BitVec 5) (k : Nat) (q : Quad Int) :
    ∃ e e', InUse d.twoRegions e ∧ InUse d.twoRegions e' ∧ subsetEnds q (subsetOf d part k) = (q.get e, q.get e') := by
  by_cases hsub : subsetOf d part k = 0
  · exact ⟨.w, .x, by simp [InUse], by simp [InUse], if_pos hsub⟩
  · have htwo : d.twoRegions = true := by
      by_contra hone
      exact hsub (if_neg hone)
    exact ⟨.y, .z, .inl htwo, .inl htwo, if_neg hsub⟩

/-- A pixel of subset 1 lies between y and z, any other between w and x (41_bc6h.md R120). -/
theorem channelValue_subsetOf (d : ModeDesc) (signed : Bool) (wt : Nat) (part : BitVec 5) (k : Nat) (q : Quad Int) :
    channelValue signed wt (subsetOf d part k) q =
      if d.twoRegions && partitionOf part k != 0 then finish signed (interp q.y q.z wt)
      else finish signed (interp q.w q.x wt) := by
  unfold subsetOf
  cases d.twoRegions with
  | true => by_cases hsub : partitionOf part k = 0 <;> simp [channelValue, subsetEnds, hsub]
  | false => rfl

/-- H[k] is, channel by channel, the pixel's channel value (41_bc6h.md R110). -/
theorem get_blockPixels (m : Fin 14) (signed : Bool) (ep : Rgb (Quad Int)) (part : BitVec 5) (idx : List Nat) (k : Fin 16)
    (c : Chan) :
    (blockPixels m signed ep part idx)[k].get c =
      channelValue signed (weightOf m (idx.getD k.val 0)) (subsetOf (modeDesc m) part k.val) (ep.get c) := by
  simp only [blockPixels, Fin.getElem_fin, Vector.getElem_ofFn, pixelValue, Rgb.get_map]

/-- H holds finished values of the range of the endpoints in use, since the interpolation does not leave it. -/
theorem exists_finish_eq_pixel {m : Fin 14} {ep : Rgb (Quad Int)} {lo hi : Int} {c : Chan}
    (hep : ∀ e, InUse (modeDesc m).twoRegions e → (ep.get c).get e ∈ Set.Icc lo hi) (signed : Bool) (part : BitVec 5)
    (idx : List Nat) (k : Fin 16) :
    ∃ v ∈ Set.Icc lo hi, (blockPixels m signed ep part idx)[k].get c = finish signed v := by
  obtain ⟨e, e', he, he', hends⟩ := subsetEnds_subsetOf (modeDesc m) part k (ep.get c)
  refine ⟨_, interp_mem_Icc (weightOf_le m (idx.getD k.val 0)) (hep e he) (hep e' he'), ?_⟩
  rw [get_blockPixels, channelValue, hends]

/-! ### The ranges of a block (41_bc6h.md R127) -/

/-- The endpoint fields in use of a well-formed block fit their widths (30_encoding.md R76). -/
theorem field_lt_of_wf {m : Fin 14} {f : BlockFields} (hf : f.wf m = true) (c : Chan) {e : EpIx}
    (huse : InUse (modeDesc m).twoRegions e) : (f.ep.get c).get e < 2 ^ (modeDesc m).width c e := by
  obtain ⟨hep, -, -⟩ := (wf_iff m f).1 hf
  have hstored : storedWidth m c e = (modeDesc m).width c e :=
    if_pos (by simpa only [InUse, Bool.or_eq_true, beq_iff_eq, or_assoc] using huse)
  exact hstored ▸ (epOk_iff m f).1 hep c e

theorem get_finalEndpoints (d : ModeDesc) (signed : Bool) (raw : Rgb (Quad Nat)) (c : Chan) :
    (finalEndpoints d signed raw).get c = channelEndpoints d c signed (raw.get c) := by
  cases c <;> rfl

/-- The unquantized endpoints of a block are values that Finish takes. -/
theorem channelEndpoints_mem_finishDomain {m : Fin 14} {f : BlockFields} (hf : f.wf m = true) (signed : Bool) (c : Chan)
    {e : EpIx} (huse : InUse (modeDesc m).twoRegions e) :
    (channelEndpoints (modeDesc m) c signed (f.ep.get c)).get e ∈ finishDomain signed := by
  have hwidth := widthRange_reconstruct signed (fun e => field_lt_of_wf hf c) huse
  rw [channelEndpoints, get_mapInUse huse]
  cases signed with
  | true => exact unquantize_true_mem_Icc (wb_le m) hwidth
  | false => exact unquantize_false_mem_Icc (wb_le m) hwidth

/-- In the modes below 16 bits the signed endpoints leave out -0x8000 (41_bc6h.md R119). -/
theorem channelEndpoints_true_mem_Icc {m : Fin 14} (hm : m ≠ 13) (c : Chan) (raw : Quad Nat) {e : EpIx}
    (huse : InUse (modeDesc m).twoRegions e) :
    (channelEndpoints (modeDesc m) c true raw).get e ∈ Set.Icc (-32767) 32767 := by
  rw [channelEndpoints, get_mapInUse huse]
  exact unquantize_true_mem_Icc_of_lt (wb_lt_of_ne m hm) _

/-- So every pixel of a block is in the range of Finish (41_bc6h.md R127). -/
theorem halfInRange_pixel {m : Fin 14} {f : BlockFields} (hf : f.wf m = true) (signed : Bool) (k : Fin 16) (c : Chan) :
    halfInRange ((blockPixels m signed (finalEndpoints (modeDesc m) signed f.ep) f.part f.idx)[k].get c) = true := by
  obtain ⟨v, hv, hpixel⟩ := exists_finish_eq_pixel (ep := finalEndpoints (modeDesc m) signed f.ep) (c := c)
    (fun e huse => get_finalEndpoints .. ▸ channelEndpoints_mem_finishDomain hf signed c huse) signed f.part f.idx k
  exact hpixel ▸ halfInRange_finish hv

end Sys2Proof.Machine
end

section
/-! SUPPORT. A block through the rows of BC6H_MODE and through the BC6H commands (41_bc6h.md R110, R112, R126). -/

namespace Sys2Proof

/-! ### Reserved codes (30_encoding.md R74) -/

/-- The low bits of a block are those of its first byte (00_scope.md R8). -/
theorem setWidth_blockOfBytes (bs : List Byte) : (blockOfBytes bs).setWidth 5 = (bs.getD 0 0).setWidth 5 := by
  cases bs with
  | nil => rfl
  | cons x xs =>
    rw [← BitVec.toNat_inj, BitVec.toNat_setWidth, blockOfBytes, BitVec.toNat_ofNat, List.foldr_cons,
      List.getD_cons_zero, BitVec.toNat_setWidth]
    omega

/-- A reserved code has 5 bits and selects no mode. -/
theorem reserved_selects_no_mode :
    ∀ code : BitVec 5, reservedCodes.contains code = true → 2 ≤ code.toNat % 2 ^ 2 ∧ modeOfCode code.toNat = none := by
  decide

/-- Nothing after the mode code of a reserved block is read (41_bc6h.md R112). -/
theorem parseBlock_of_reserved {b : Block} {code : BitVec 5} (hb : b.setWidth 5 = code)
    (hcode : reservedCodes.contains code = true) : parseBlock b = some ⟨code, none, BlockFields.clear, 5⟩ := by
  obtain ⟨hlong, hmode⟩ := reserved_selects_no_mode code hcode
  have hlow : b.toNat % 2 ^ 5 = code.toNat := by rw [← hb, BitVec.toNat_setWidth]
  have hread : readModeCode b = some (code.toNat, 5) := by rw [readModeCode_eq, if_neg (by omega), hlow]
  simp only [parseBlock, hread, hmode, BitVec.ofNat_toNat, BitVec.setWidth_eq]

namespace Machine

/-! ### The rows of BC6H_MODE -/

theorem exec_instrOfMode (m : Fin 14) (f : BlockFields) (s : State) :
    exec (instrOfMode m f) s = .next (runMode m s.signed f s) := by
  fin_cases m <;> rfl

theorem exec_bc6hModeRsv (code : BitVec 5) (s : State) : exec (.bc6hModeRsv code) s = .next (runReserved code s) := rfl

theorem instrOfMode_ne_rsv (m : Fin 14) (f : BlockFields) (code : BitVec 5) : instrOfMode m f ≠ .bc6hModeRsv code := by
  fin_cases m <;> nofun

/-- A block decodes to the row that does what the command does after the reads, which end at bit 5 after a reserved code and
at bit 128 after any other (41_bc6h.md R110). -/
theorem exists_row_of_block (b : Block) :
    ∃ i p, parseBlock b = some p ∧ decodeBlock b = .ok i ∧ i.wf = true ∧
      ((∃ code, i = .bc6hModeRsv code) → p.cur = 5) ∧ ((∀ code, i ≠ .bc6hModeRsv code) → p.cur = 128) ∧
      ∀ s, exec i { s with work := { s.work with cur := p.cur } } = .next (runBlock s.signed p s) := by
  obtain ⟨code, cur, hread, hmode, hparse⟩ | ⟨m, f, hwf, hparse⟩ := parseBlock_cases b
  · obtain ⟨hcur, hcode⟩ := readModeCode_reserved hread hmode
    exact ⟨.bc6hModeRsv (BitVec.ofNat 5 code), _, hparse, by rw [decodeBlock, hparse], hcode, fun _ => hcur,
      fun hne => absurd rfl (hne _), fun s => rfl⟩
  · exact ⟨instrOfMode m f, _, hparse, by rw [decodeBlock, hparse], by rw [wf_instrOfMode, hwf],
      fun ⟨code, hi⟩ => absurd hi (instrOfMode_ne_rsv m f code), fun _ => rfl, fun s => exec_instrOfMode m f _⟩

/-! ### The commands -/

/-- A block in a byte SRC passes the checks (41_bc6h.md R110). -/
theorem bc6hCheck_eq_none {s : State} {bs : List Byte} (hsrc : ByteSource s bs) (hlen : bs.length = 16) :
    bc6hCheck s = none := by
  obtain ⟨hbytes, haliased⟩ := hsrc
  simp [bc6hCheck, firstRefusal_eq_none, hbytes, haliased, hlen]

/-- A block changes DST and the working registers alone, so overwriting STATUS and the buffers leaves only the latter. -/
theorem runBlock_setStatus_setMem (signed : Bool) (p : ParsedBlock) (s : State) (status : Word) (mem : Memory) :
    { runBlock signed p s with status := status, mem := mem } =
      { s with status := status, mem := mem, work := (runBlock signed p s).work } := by
  unfold runBlock
  cases p.mode <;> rfl

/-- A BC6H command on a block: Init, the block, then DST packed from the channels it leaves, and DONE (41_bc6h.md R110). -/
theorem bc6hCommand_of_parseBlock {s t : State} {bs : List Byte} {p : ParsedBlock} {signed : Bool} (hsrc : ByteSource s bs)
    (hlen : bs.length = 16) (hparse : parseBlock (blockOfBytes bs) = some p)
    (ht : t = runBlock signed p (initWork (blockOfBytes bs) s)) (f : Rgb Byte → Rgb Byte) :
    command (bc6hCheck s) (bc6hBody signed f) s =
      { t with
        status := 0x00000001#32
        mem := s.mem.setDst (.words ((pixelBytes t.work).map (packArgb ∘ f))) } := by
  rw [bc6hCheck_eq_none hsrc hlen, command_none, ht, runBlock_setStatus_setMem]
  simp only [bc6hBody, hsrc.1, asBytes_bytes, hparse, complete_setDst_runBlock, statusDone_eq, initWork_mem]
  rfl

theorem exec_bc6hDec (signed : Bool) (s : State) :
    exec (.bc6hDec signed) s = .next (command (bc6hCheck s) (bc6hBody signed id) s) := rfl

theorem exec_bc6hDecF (signed : Bool) (s : State) :
    exec (.bc6hDecF signed) s = .next (command (bc6hCheck s) (bc6hBody signed (Rgb.map floatRoundTrip)) s) := rfl

/-- The float round trip changes no pixel (41_bc6h.md R126). -/
theorem map_floatRoundTrip : Rgb.map floatRoundTrip = id := by
  funext c
  simp only [Rgb.map, floatRoundTrip_eq, id_eq]

theorem exec_bc6hDecF_eq (signed : Bool) (s : State) : exec (.bc6hDecF signed) s = exec (.bc6hDec signed) s := by
  rw [exec_bc6hDecF, map_floatRoundTrip, exec_bc6hDec]

/-- The pixels of a reserved block are packed to opaque black, whatever BC6H_TO8 is (41_bc6h.md R112). -/
theorem packed_reserved {k : Work} (hrsv : k.midx = .rsv) :
    (pixelBytes k).map packArgb = List.replicate 16 0xFF000000#32 := by
  rw [pixelBytes, hrsv]
  rfl

end Machine
end Sys2Proof
end

section
/-! The statements of the family of 41_bc6h.md, settled. -/

namespace Sys2Proof.Machine

open Sys2Proof

/-- Settles O25: the block's row does what the command does between Init and the packing. -/
theorem bc6hCommandsRunTheDecodedBlock : Obligations.Bc6hCommandsRunTheDecodedBlock := by
  rintro s bs signed hsrc hlen rfl
  obtain ⟨i, p, hparse, hdecode, hwf, hrsv, hmode, hexec⟩ := exists_row_of_block (blockOfBytes bs)
  have hcommand := bc6hCommand_of_parseBlock (signed := cmdS s.cmd) hsrc hlen hparse rfl
  exact ⟨i, p.cur, _, by rw [decodeBytes, if_pos hlen, hdecode], hwf, hrsv, hmode, hexec (initWork (blockOfBytes bs) s),
    congrArg _ (hcommand id), congrArg _ (hcommand (Rgb.map floatRoundTrip))⟩

/-- Settles O26: the code in the first byte selects no mode, so the pixels are the black of a reserved block. -/
theorem reservedBlockDecodesToOpaqueBlack : Obligations.ReservedBlockDecodesToOpaqueBlack := by
  intro s bs signed hsrc hlen hcode i hi
  have hparse := parseBlock_of_reserved (setWidth_blockOfBytes bs) hcode
  have hdec : exec i s = exec (.bc6hDec signed) s := by
    obtain rfl | rfl := List.mem_pair.1 hi
    · rfl
    · exact exec_bc6hDecF_eq signed s
  rw [hdec, exec_bc6hDec, bc6hCommand_of_parseBlock hsrc hlen hparse rfl, Function.comp_id, packed_reserved rfl]
  rfl

/-- Settles O27: the round trip is the identity, so the two commands have one body. -/
theorem floatSiblingEqualsBc6hDec : Obligations.FloatSiblingEqualsBc6hDec :=
  ⟨floatRoundTrip_eq, exec_bc6hDecF_eq⟩

/-- Settles O29: the 14 rows run one pipeline, whose pixels interpolate between the ends of their subsets. -/
theorem blockModesFillTheWorkingRegisters : Obligations.BlockModesFillTheWorkingRegisters := by
  intro m f s
  refine ⟨_, exec_instrOfMode m f s, rfl, rfl, rfl, rfl, rfl, rfl, rfl, fun c => get_finalEndpoints .., fun k c => ?_⟩
  exact (get_blockPixels ..).trans (channelValue_subsetOf ..)

/-- Settles O33: the cases of the unsigned path, and the endpoints it is applied to. -/
theorem unsignedUnquantize : Obligations.UnsignedUnquantize := by
  refine ⟨fun bits v hsix hbits hlow hhigh => ?_, fun m c raw => ?_⟩
  · have hrange := unquantize_false_mem_Icc hbits ⟨hlow, hhigh⟩
    refine ⟨fun hwide => ?_, fun hnarrow hzero => ?_, fun hnarrow hmax => ?_, fun hnarrow hzero hmax => ?_, hrange.1, hrange.2⟩
    all_goals rw [unquantize_false_eq]
    · rw [if_pos hwide]
    · rw [if_neg (Nat.not_le.2 hnarrow), if_pos hzero]
    · have hpow : (2 : Int) ^ 6 ≤ 2 ^ bits := pow_le_pow_right₀ (by decide) hsix
      rw [if_neg (Nat.not_le.2 hnarrow), if_neg (by omega), if_pos hmax]
    · rw [if_neg (Nat.not_le.2 hnarrow), if_neg hzero, if_neg hmax]
  · rw [channelEndpoints, mapInUse_eq]

/-- Settles O34: the cases of the magnitude under a sign, and the endpoints the signed path is applied to. -/
theorem signedUnquantize : Obligations.SignedUnquantize := by
  refine ⟨fun bits v _ hbits hlow hhigh => ⟨fun hwide => ?_, fun hnarrow => ⟨?_, ?_⟩⟩, fun m c raw => ?_⟩
  · have hrange := unquantize_true_mem_Icc hbits ⟨hlow, hhigh⟩
    exact ⟨unquantize_true_of_le hwide v, hrange.1, hrange.2⟩
  · refine ⟨unquantizeMagnitude bits |v|, unquantize_true_eq hnarrow v, fun hzero => ?_, fun hpos hmax => ?_,
      fun hpos hbelow => ?_⟩
    · exact if_pos hzero
    · exact (if_neg hpos).trans (if_pos hmax)
    · exact (if_neg hpos).trans (if_neg (not_le.2 hbelow))
  · exact unquantize_true_mem_Icc_of_lt hnarrow v
  · rw [channelEndpoints, mapInUse_eq]

/-- Settles O35: each step keeps the range it is given, and Finish takes the last. -/
theorem pipelineValuesStayInRange : Obligations.PipelineValuesStayInRange := by
  refine fun m f signed hf => ⟨fun c e huse => ?_, halfInRange_pixel hf signed⟩
  have hwidth := widthRange_reconstruct signed (fun e => field_lt_of_wf hf c) huse
  have hdomain := channelEndpoints_mem_finishDomain hf signed c huse
  cases signed with
  | true =>
    exact ⟨hwidth.1, hwidth.2, hdomain.1, hdomain.2, fun hm => (channelEndpoints_true_mem_Icc hm c _ huse).1⟩
  | false => exact ⟨hwidth.1, hwidth.2, hdomain.1, hdomain.2⟩

/-- Settles O36: the quotient by 64 is a floor, and a weighted mean lies between its ends. -/
theorem interpolationIsFloorBetweenTheEnds : Obligations.InterpolationIsFloorBetweenTheEnds := by
  intro a b wt hwt
  have hfloor := interp_eq a b wt
  generalize a * (64 - wt) + b * wt + 32 = sum at hfloor ⊢
  exact ⟨by omega, by omega, interp_zero a b, interp_sixtyFour a b, le_interp hwt (min_le_left a b) (min_le_right a b),
    interp_le hwt (le_max_left a b) (le_max_right a b)⟩

/-- Settles O37: the cases of Finish, and the modes below 16 bits do not give it -0x8000. -/
theorem finishScalesToHalfFloatRange : Obligations.FinishScalesToHalfFloatRange := by
  refine ⟨fun v hlow hhigh => ?_, fun v hlow hhigh => ⟨fun hpos => ?_, finish_true_of_magnitude_zero, fun hneg hmag => ?_,
    finish_true_magnitude_iff ⟨hlow, hhigh⟩⟩, rfl, rfl, fun m f k c _ hm => ?_⟩
  · have hfinish := toNat_finish_false ⟨hlow, hhigh⟩
    exact ⟨hfinish, by omega⟩
  · have hfinish := toNat_finish_true_of_nonneg ⟨hpos, hhigh⟩
    exact ⟨hfinish, by omega⟩
  · have hfinish := toNat_finish_true_of_neg hlow hneg hmag
    exact ⟨hfinish, by omega, by omega⟩
  · obtain ⟨v, hv, hpixel⟩ := exists_finish_eq_pixel (ep := finalEndpoints (modeDesc m) true f.ep) (c := c)
      (fun e huse => get_finalEndpoints .. ▸ channelEndpoints_true_mem_Icc hm c _ huse) true f.part f.idx k
    obtain ⟨hlow, hhigh⟩ := hv
    rw [hpixel, Ne, finish_true_magnitude_iff ⟨by omega, hhigh⟩]
    omega

/-- Settles O30: the row of the reserved codes reads no field. -/
theorem reservedModeWritesOpaqueBlack : Obligations.ReservedModeWritesOpaqueBlack :=
  exec_bc6hModeRsv

/-- Settles O31: the direct modes are 9 and 10, and the sum is the transform inverse. -/
theorem endpointReconstructionFollowsTheSteps : Obligations.EndpointReconstructionFollowsTheSteps := by
  intro m c signed q d e base sum
  cases hmode : (modeDesc m).transformed with
  | true =>
    have hm : ¬ (m = 9 ∨ m = 10) := fun h => by simp [(transformed_eq_false_iff m).2 h] at hmode
    rw [if_neg hm]
    exact reconstruct_of_transformed hmode c signed q
  | false =>
    rw [if_pos ((transformed_eq_false_iff m).1 hmode)]
    exact reconstruct_of_direct hmode c signed q

/-- Settles O38: the shapes of the table, one by one, and the index widths they give. -/
theorem partitionShapesHaveTheirFixups : Obligations.PartitionShapesHaveTheirFixups :=
  ⟨by decide, sum_indexWidths⟩

end Sys2Proof.Machine
end

section
/-! SUPPORT. The swizzle loop over groups of elements, and an unswizzle after it (20_memory.md R58, R61, R63). -/

namespace Sys2Proof.Machine

open Sys2Proof

/-! ### Groups of a buffer -/

/-- Every element of a buffer of whole groups lies in one of them. -/
theorem group_lt_of_lt {n e i : Nat} (hwhole : n % e = 0) (hi : i < n) : i / e < n / e :=
  Nat.div_lt_div_of_lt_of_dvd (Nat.dvd_of_mod_eq_zero hwhole) hi

theorem group_end_le_of_lt {n e i : Nat} (hwhole : n % e = 0) (hi : i < n) : i / e * e + e ≤ n := by
  calc i / e * e + e = (i / e + 1) * e := by ring
    _ ≤ n / e * e := Nat.mul_le_mul_right e (group_lt_of_lt hwhole hi)
    _ ≤ n := Nat.div_mul_le_self n e

/-- An element of a group in range is an element of the buffer. -/
theorem group_elem_lt {n e d j : Nat} (hd : d < n / e) (hj : j < e) : d * e + j < n := by
  calc d * e + j < d * e + e := by omega
    _ = (d + 1) * e := by ring
    _ ≤ n / e * e := Nat.mul_le_mul_right e hd
    _ ≤ n := Nat.div_mul_le_self n e

/-- Element `i` after a swizzle, by the last writer of its group. -/
theorem getElem?_transfer_of_lt {α : Type} (fill : α) {e : Nat} (he : 1 ≤ e) (moves : List (Nat × Nat)) {src : List α}
    (hwhole : src.length % e = 0) {i : Nat} (hi : i < src.length) :
    (transfer fill e moves src)[i]? =
      (lastWriter moves (src.length / e) (i / e)).elim (some fill) fun p => src[p * e + i % e]? := by
  conv_lhs => rw [← Nat.div_add_mod' i e]
  rw [getElem?_transfer fill e he moves src _ _ (group_end_le_of_lt hwhole hi) (Nat.mod_lt i he)]
  cases lastWriter moves (src.length / e) (i / e) <;> rfl

/-! ### There and back -/

/-- No destination takes more than one source. -/
def SourcesUnique (moves : List (Nat × Nat)) : Prop := ∀ d p q, (d, p) ∈ moves → (d, q) ∈ moves → q = p

/-- Running the moves backwards after the moves gives back each group that the way back reaches, and FILL elsewhere. -/
theorem getElem?_transfer_back {α : Type} (fill : α) {e : Nat} (he : 1 ≤ e) {moves back : List (Nat × Nat)}
    (huniq : SourcesUnique moves) (hback : ∀ p d, (p, d) ∈ back → (d, p) ∈ moves) {src : List α}
    (hwhole : src.length % e = 0) {i : Nat} (hi : i < src.length) :
    (transfer fill e back (transfer fill e moves src))[i]? =
      if (lastWriter back (src.length / e) (i / e)).isSome then src[i]? else some fill := by
  rw [getElem?_transfer_of_lt fill he back (by rwa [length_transfer]) (by rwa [length_transfer]), length_transfer]
  cases hw : lastWriter back (src.length / e) (i / e) with
  | none => rfl
  | some d =>
    obtain ⟨hmem, hd⟩ := mem_of_lastWriter_eq_some hw
    have hmove := hback _ _ hmem
    have hthere : lastWriter moves (src.length / e) d = some (i / e) := by
      rw [lastWriter_of_unique _ hmove fun q hq => huniq d _ q hmove hq,
        if_pos (group_lt_of_lt hwhole hi)]
    have hj := Nat.mod_lt i he
    simp only [Option.elim_some, Option.isSome_some, if_true]
    rw [getElem?_transfer_of_lt fill he moves hwhole (group_elem_lt hd hj), row_major_div d hj, row_major_mod d hj, hthere,
      Option.elim_some, Nat.div_add_mod']

/-- Where the way back reaches every group, it gives back the whole buffer. -/
theorem transfer_back_eq {α : Type} (fill : α) {e : Nat} (he : 1 ≤ e) {moves back : List (Nat × Nat)}
    (huniq : SourcesUnique moves) (hback : ∀ p d, (p, d) ∈ back → (d, p) ∈ moves) {src : List α}
    (hwhole : src.length % e = 0) (hreach : ∀ p, p < src.length / e → ∃ d, d < src.length / e ∧ (p, d) ∈ back) :
    transfer fill e back (transfer fill e moves src) = src := by
  refine List.ext_getElem? fun i => ?_
  by_cases hi : i < src.length
  · rw [getElem?_transfer_back fill he huniq hback hwhole hi, if_pos]
    obtain ⟨d, hd, hmem⟩ := hreach _ (group_lt_of_lt hwhole hi)
    refine Option.isSome_iff_ne_none.2 fun hnone => ?_
    exact absurd ((lastWriter_eq_none_iff ..).1 hnone d hmem) (Nat.not_le.2 hd)
  · rw [List.getElem?_eq_none (Nat.not_lt.1 hi), List.getElem?_eq_none (by simpa using hi)]

/-! ### Swizzles and unswizzles by an index function -/

/-- The index function takes distinct pixels of a `w` x `h` image to distinct elements. -/
def PixelsDistinct (ix : Nat → Nat → Nat) (w h : Nat) : Prop :=
  ∀ x y x' y', x < w → y < h → x' < w → y' < h → ix x y = ix x' y' → x = x' ∧ y = y'

/-- The moves of a swizzle: pixel (x, y) goes to the element its index function names. -/
theorem mem_swizzleMoves (ix : Nat → Nat → Nat) (w h d p : Nat) :
    (d, p) ∈ swizzleMoves ix w h ↔ ∃ x y, x < w ∧ y < h ∧ d = ix x y ∧ p = y * w + x := by
  simp only [swizzleMoves, List.mem_map, Prod.exists, mem_grid, Prod.mk.injEq, and_assoc, @eq_comm _ d, @eq_comm _ p]

/-- An unswizzle makes the moves of the swizzle backwards. -/
theorem mem_unswizzleMoves_iff_swap (ix : Nat → Nat → Nat) (w h p d : Nat) :
    (p, d) ∈ unswizzleMoves ix w h ↔ (d, p) ∈ swizzleMoves ix w h := by
  rw [mem_unswizzleMoves, mem_swizzleMoves]
  simp only [and_comm]

theorem sourcesUnique_unswizzleMoves (ix : Nat → Nat → Nat) (w h : Nat) : SourcesUnique (unswizzleMoves ix w h) := by
  intro d p q hp hq
  obtain ⟨x, y, hx, -, rfl, rfl⟩ := (mem_unswizzleMoves ..).1 hp
  obtain ⟨x', y', hx', -, heq, rfl⟩ := (mem_unswizzleMoves ..).1 hq
  obtain ⟨rfl, rfl⟩ := row_major_inj hx hx' heq
  rfl

theorem PixelsDistinct.sourcesUnique_swizzleMoves {ix : Nat → Nat → Nat} {w h : Nat} (hix : PixelsDistinct ix w h) :
    SourcesUnique (swizzleMoves ix w h) := by
  intro d p q hp hq
  obtain ⟨x, y, hx, hy, rfl, rfl⟩ := (mem_swizzleMoves ..).1 hp
  obtain ⟨x', y', hx', hy', heq, rfl⟩ := (mem_swizzleMoves ..).1 hq
  obtain ⟨rfl, rfl⟩ := hix x y x' y' hx hy hx' hy' heq
  rfl

/-- A swizzle fills the element of pixel (x, y) from that pixel, where the source has it. -/
theorem PixelsDistinct.lastWriter_swizzleMoves {ix : Nat → Nat → Nat} {w h x y : Nat} (hix : PixelsDistinct ix w h)
    (n : Nat) (hx : x < w) (hy : y < h) :
    lastWriter (swizzleMoves ix w h) n (ix x y) = if y * w + x < n then some (y * w + x) else none := by
  have hmem := (mem_swizzleMoves ix w h _ _).2 ⟨x, y, hx, hy, rfl, rfl⟩
  exact lastWriter_of_unique n hmem fun q hq => hix.sourcesUnique_swizzleMoves _ _ q hmem hq

/-- A swizzle writes no element but those of the pixels. -/
theorem lastWriter_swizzleMoves_padding {ix : Nat → Nat → Nat} {w h d : Nat} (n : Nat)
    (hd : ∀ x y, x < w → y < h → ix x y ≠ d) : lastWriter (swizzleMoves ix w h) n d = none := by
  refine (lastWriter_eq_none_iff ..).2 fun p hp => ?_
  obtain ⟨x, y, hx, hy, rfl, -⟩ := (mem_swizzleMoves ..).1 hp
  exact absurd rfl (hd x y hx hy)

/-- An unswizzle writes element `d` of the image where its index is one of the source. -/
theorem isSome_lastWriter_unswizzleMoves (ix : Nat → Nat → Nat) (w h n d : Nat) :
    (lastWriter (unswizzleMoves ix w h) n d).isSome ↔ d < w * h ∧ ix (d % w) (d / w) < n := by
  by_cases hd : d < w * h
  · have hw : 0 < w := Nat.pos_of_mul_pos_right (Nat.zero_lt_of_lt hd)
    have hlast := lastWriter_unswizzleMoves ix n (Nat.mod_lt d hw) (Nat.div_lt_of_lt_mul hd)
    rw [Nat.div_add_mod'] at hlast
    rw [hlast]
    split_ifs with hix <;> simp [hd, hix]
  · rw [lastWriter_unswizzleMoves_padding ix n (Nat.not_lt.1 hd)]
    simp [hd]

/-! ### Index functions that permute the image -/

/-- An injection of the numbers below `n` into themselves is a bijection. -/
theorem permutesBelow_of_injective {n : Nat} {f : Nat → Nat} (hlt : ∀ p, p < n → f p < n)
    (hinj : ∀ p q, p < n → q < n → f p = f q → p = q) : PermutesBelow n f := by
  refine ⟨hlt, hinj, fun q hq => ?_⟩
  have hsurj : Function.Surjective fun p : Fin n => (⟨f p, hlt p p.isLt⟩ : Fin n) :=
    Finite.surjective_of_injective fun p p' h => Fin.ext (hinj p p' p.isLt p'.isLt (congrArg Fin.val h))
  obtain ⟨p, hp⟩ := hsurj ⟨q, hq⟩
  exact ⟨p, p.isLt, congrArg Fin.val hp⟩

/-- An index function of pixels permutes the image where the function of linear pixel indices does. -/
def PermutesImage (ix : Nat → Nat → Nat) (w h : Nat) : Prop := PermutesBelow (w * h) fun p => ix (p % w) (p / w)

section

variable {ix : Nat → Nat → Nat} {w h : Nat}

theorem PermutesImage.pixelsDistinct (hperm : PermutesImage ix w h) : PixelsDistinct ix w h := by
  intro x y x' y' hx hy hx' hy' heq
  refine row_major_inj hx hx' (hperm.2.1 _ _ (row_major_lt hx hy) (row_major_lt hx' hy') ?_)
  simpa only [row_major_mod _ hx, row_major_div _ hx, row_major_mod _ hx', row_major_div _ hx'] using heq

/-- Without padding, unswizzle undoes swizzle. -/
theorem PermutesImage.unswizzle_swizzle {α : Type} (hperm : PermutesImage ix w h) (fill : α) {e : Nat} (he : 1 ≤ e)
    {src : List α} (hsize : src.length = w * h * e) :
    transfer fill e (unswizzleMoves ix w h) (transfer fill e (swizzleMoves ix w h) src) = src := by
  refine transfer_back_eq fill he hperm.pixelsDistinct.sourcesUnique_swizzleMoves
    (fun p d => (mem_unswizzleMoves_iff_swap ix w h p d).1) (by rw [hsize, Nat.mul_mod_left]) fun p hp => ?_
  rw [hsize, Nat.mul_div_cancel _ he] at hp ⊢
  have hw : 0 < w := Nat.pos_of_mul_pos_right (Nat.zero_lt_of_lt hp)
  exact ⟨_, hperm.1 p hp, (mem_unswizzleMoves ..).2
    ⟨p % w, p / w, Nat.mod_lt p hw, Nat.div_lt_of_lt_mul hp, (Nat.div_add_mod' p w).symm, rfl⟩⟩

/-- Without padding, swizzle undoes unswizzle. -/
theorem PermutesImage.swizzle_unswizzle {α : Type} (hperm : PermutesImage ix w h) (fill : α) {e : Nat} (he : 1 ≤ e)
    {src : List α} (hsize : src.length = w * h * e) :
    transfer fill e (swizzleMoves ix w h) (transfer fill e (unswizzleMoves ix w h) src) = src := by
  refine transfer_back_eq fill he (sourcesUnique_unswizzleMoves ix w h)
    (fun p d => (mem_unswizzleMoves_iff_swap ix w h d p).2) (by rw [hsize, Nat.mul_mod_left]) fun d hd => ?_
  rw [hsize, Nat.mul_div_cancel _ he] at hd ⊢
  obtain ⟨p, hp, rfl⟩ := hperm.2.2 d hd
  have hw : 0 < w := Nat.pos_of_mul_pos_right (Nat.zero_lt_of_lt hp)
  exact ⟨p, hp, (mem_swizzleMoves ..).2
    ⟨p % w, p / w, Nat.mod_lt p hw, Nat.div_lt_of_lt_mul hp, rfl, (Nat.div_add_mod' p w).symm⟩⟩

end

end Sys2Proof.Machine
end

section
/-! SUPPORT. Two byte commands in a row, with MOVE SRC, DST between them (30_encoding.md R83). -/

namespace Sys2Proof.Machine

open Sys2Proof

/-- The state after a byte command that left `out`, once the host has moved DST to SRC. -/
def movedBack (s : State) (out : List Byte) : State :=
  { s with status := 0x00000001#32, mem := (s.mem.setDst (.bytes out)).moveDstToSrc }

theorem movedBack_byteSource (s : State) (out : List Byte) : ByteSource (movedBack s out) out := ⟨rfl, rfl⟩

/-- What two byte commands leave, the second on the output of the first. -/
theorem EndsWithBytes.andThen {i j : Instr} {s : State} {P : List Byte → Prop}
    (h : EndsWithBytes i s fun mid => EndsWithBytes j (movedBack s mid) P) :
    ∃ t u out, exec i s = .next t ∧ exec j { t with mem := t.mem.moveDstToSrc } = .next u ∧
      t.status = 0x00000001#32 ∧ u.status = 0x00000001#32 ∧ u.mem.dst = .bytes out ∧ P out := by
  obtain ⟨mid, hmid, out, hout, hP⟩ := h
  exact ⟨_, _, out, hmid, hout, rfl, rfl, rfl, hP⟩

/-- Two byte commands that leave SRC as it was round-trip. -/
theorem roundTrips_of_endsWithBytes {i j : Instr} {s : State} {bs : List Byte} (hsrc : ByteSource s bs)
    (h : EndsWithBytes i s fun mid => EndsWithBytes j (movedBack s mid) (· = bs)) : RoundTrips i j s := by
  obtain ⟨t, u, out, ht, hu, htdone, hudone, hdst, rfl⟩ := h.andThen
  exact ⟨t, u, ht, hu, htdone, hudone, hdst.trans hsrc.1.symm⟩

end Sys2Proof.Machine
end

section
/-! SUPPORT. The bits of `morton_index` (42_morton.md R140). -/

namespace Sys2Proof.Machine

open Sys2Proof

/-! ### spread -/

/-- `u` holds the low 16 bits of `v` in runs of `g` bits, each followed by `g` bits 0. -/
def SpreadInRuns (g : Nat) (v u : Word) : Prop :=
  ∀ m, m < 32 → u.getLsbD m = (decide (m % (2 * g) < g) && v.getLsbD (m / (2 * g) * g + m % g))

/-- The mask of a stage of `spread` keeps the lower `g` of every `2*g` bits. -/
def KeepsLowRuns (g : Nat) (mask : Word) : Prop := ∀ m, m < 32 → mask.getLsbD m = decide (m % (2 * g) < g)

/-- One run of 16 bits is the value cut to 16 bits. -/
theorem spreadInRuns_low (v : Word) : SpreadInRuns 16 v (v &&& 0x0000FFFF#32) := by
  intro m hm
  have hmask : KeepsLowRuns 16 0x0000FFFF#32 := by unfold KeepsLowRuns; decide
  rw [BitVec.getLsbD_and, hmask m hm, Bool.and_comm]
  by_cases hlow : m < 16
  · rw [show m / (2 * 16) * 16 + m % 16 = m by omega]
  · simp [show ¬ m % (2 * 16) < 16 by omega]

/-- A stage of `spread` halves the runs: the upper half of each moves up by its length. -/
theorem SpreadInRuns.halve {g : Nat} {v u mask : Word} (hg : g = 8 ∨ g = 4 ∨ g = 2 ∨ g = 1) (hu : SpreadInRuns (2 * g) v u)
    (hmask : KeepsLowRuns g mask) : SpreadInRuns g v ((u ||| u <<< g) &&& mask) := by
  intro m hm
  rw [BitVec.getLsbD_and, BitVec.getLsbD_or, BitVec.getLsbD_shiftLeft, hmask m hm, Bool.and_comm]
  by_cases hlow : m % (2 * g) < g
  case neg => simp [hlow]
  rw [hu m hm, hu (m - g) (by omega)]
  by_cases hfirst : m % (2 * (2 * g)) < 2 * g
  · have hshifted : m < g ∨ ¬ (m - g) % (2 * (2 * g)) < 2 * g := by
      obtain rfl | rfl | rfl | rfl := hg <;> omega
    have hplace : m / (2 * (2 * g)) * (2 * g) + m % (2 * g) = m / (2 * g) * g + m % g := by
      obtain rfl | rfl | rfl | rfl := hg <;> omega
    rw [hplace]
    obtain hm' | hm' := hshifted <;> simp [hlow, hfirst, hm']
  · have hshifted : ¬ m < g ∧ (m - g) % (2 * (2 * g)) < 2 * g := by
      obtain rfl | rfl | rfl | rfl := hg <;> omega
    have hplace : (m - g) / (2 * (2 * g)) * (2 * g) + (m - g) % (2 * g) = m / (2 * g) * g + m % g := by
      obtain rfl | rfl | rfl | rfl := hg <;> omega
    rw [hplace]
    simp [hlow, hfirst, hshifted, hm]

/-- `spread` puts each of the low 16 bits before a bit 0. -/
theorem spreadInRuns_spread (v : Word) : SpreadInRuns 1 v (spread v) := by
  have h8 := (spreadInRuns_low v).halve (g := 8) (mask := 0x00FF00FF#32) (by decide) (by unfold KeepsLowRuns; decide)
  have h4 := h8.halve (g := 4) (mask := 0x0F0F0F0F#32) (by decide) (by unfold KeepsLowRuns; decide)
  have h2 := h4.halve (g := 2) (mask := 0x33333333#32) (by decide) (by unfold KeepsLowRuns; decide)
  exact h2.halve (g := 1) (mask := 0x55555555#32) (by decide) (by unfold KeepsLowRuns; decide)

theorem getLsbD_spread (v : Word) {m : Nat} (hm : m < 32) :
    (spread v).getLsbD m = (decide (m % 2 = 0) && v.getLsbD (m / 2)) := by
  rw [spreadInRuns_spread v m hm]
  simp [Nat.mod_one]

/-! ### morton_index -/

theorem getLsbD_mortonWord_even (x y : Word) {i : Nat} (hi : i < 16) :
    (mortonWord x y).getLsbD (2 * i) = x.getLsbD i := by
  rw [mortonWord, BitVec.getLsbD_or, BitVec.getLsbD_shiftLeft, getLsbD_spread x (by omega)]
  obtain rfl | hpos := Nat.eq_zero_or_pos i
  · simp
  · simp [getLsbD_spread y (m := 2 * i - 1) (by omega), show (2 * i - 1) % 2 = 1 by omega]

theorem getLsbD_mortonWord_odd (x y : Word) {i : Nat} (hi : i < 16) :
    (mortonWord x y).getLsbD (2 * i + 1) = y.getLsbD i := by
  rw [mortonWord, BitVec.getLsbD_or, BitVec.getLsbD_shiftLeft, getLsbD_spread x (by omega), Nat.add_sub_cancel,
    getLsbD_spread y (by omega)]
  simp [show 2 * i + 1 < 32 by omega]

theorem testBit_mortonIndex_even (x y : Nat) {i : Nat} (hi : i < 16) :
    (mortonIndex x y).testBit (2 * i) = x.testBit i := by
  rw [mortonIndex, BitVec.testBit_toNat, getLsbD_mortonWord_even _ _ hi, BitVec.getLsbD_ofNat]
  simp [show i < 32 by omega]

theorem testBit_mortonIndex_odd (x y : Nat) {i : Nat} (hi : i < 16) :
    (mortonIndex x y).testBit (2 * i + 1) = y.testBit i := by
  rw [mortonIndex, BitVec.testBit_toNat, getLsbD_mortonWord_odd _ _ hi, BitVec.getLsbD_ofNat]
  simp [show i < 32 by omega]

theorem mortonIndex_lt (x y : Nat) : mortonIndex x y < 2 ^ 32 := BitVec.isLt _

/-- Numbers of at most 16 bits that agree in those bits are equal. -/
theorem eq_of_low_bits_eq {a b : Nat} (ha : a ≤ 65535) (hb : b ≤ 65535) (h : ∀ i, i < 16 → a.testBit i = b.testBit i) :
    a = b := by
  refine Nat.eq_of_testBit_eq fun i => ?_
  by_cases hi : i < 16
  · exact h i hi
  · have hpow : 2 ^ 16 ≤ 2 ^ i := Nat.pow_le_pow_right Nat.two_pos (Nat.not_lt.1 hi)
    rw [Nat.testBit_lt_two_pow (by omega), Nat.testBit_lt_two_pow (by omega)]

/-- Each coordinate is read off its bits of the index. -/
theorem mortonIndex_inj {x y x' y' : Nat} (hx : x ≤ 65535) (hy : y ≤ 65535) (hx' : x' ≤ 65535) (hy' : y' ≤ 65535)
    (h : mortonIndex x y = mortonIndex x' y') : x = x' ∧ y = y' := by
  constructor
  · refine eq_of_low_bits_eq hx hx' fun i hi => ?_
    rw [← testBit_mortonIndex_even x y hi, h, testBit_mortonIndex_even x' y' hi]
  · refine eq_of_low_bits_eq hy hy' fun i hi => ?_
    rw [← testBit_mortonIndex_odd x y hi, h, testBit_mortonIndex_odd x' y' hi]

/-- The index of coordinates of `k` bits has `2*k` bits. -/
theorem mortonIndex_lt_two_pow {k x y : Nat} (hx : x < 2 ^ k) (hy : y < 2 ^ k) :
    mortonIndex x y < 2 ^ (2 * k) := by
  refine Nat.lt_pow_two_of_testBit _ fun m hm => ?_
  have hhigh : ∀ {v : Nat}, v < 2 ^ k → v.testBit (m / 2) = false := fun hv =>
    Nat.testBit_lt_two_pow (hv.trans_le (Nat.pow_le_pow_right Nat.two_pos (by omega)))
  by_cases hm32 : m < 32
  · obtain heven | hodd := Nat.mod_two_eq_zero_or_one m
    · rw [show m = 2 * (m / 2) by omega, testBit_mortonIndex_even x y (by omega), hhigh hx]
    · rw [show m = 2 * (m / 2) + 1 by omega, testBit_mortonIndex_odd x y (by omega), hhigh hy]
  · exact Nat.testBit_lt_two_pow
      ((mortonIndex_lt x y).trans_le (Nat.pow_le_pow_right Nat.two_pos (Nat.not_lt.1 hm32)))

/-- Distinct pixels of an image of legal dimensions have distinct indices. -/
theorem pixelsDistinct_mortonIndex {w h : Nat} (hw : w ≤ 65535) (hh : h ≤ 65535) : PixelsDistinct mortonIndex w h :=
  fun _ _ _ _ hx hy hx' hy' => mortonIndex_inj (by omega) (by omega) (by omega) (by omega)

/-- On a square of a power of two the indices fill the square (42_morton.md R144). -/
theorem permutesImage_mortonIndex {k : Nat} (hk : k ≤ 15) : PermutesImage mortonIndex (2 ^ k) (2 ^ k) := by
  have hside : (2 : Nat) ^ k ≤ 2 ^ 15 := Nat.pow_le_pow_right Nat.two_pos hk
  have hcoords : ∀ p, p < 2 ^ k * 2 ^ k → p % 2 ^ k < 2 ^ k ∧ p / 2 ^ k < 2 ^ k := fun p hp =>
    ⟨Nat.mod_lt p (Nat.two_pow_pos k), Nat.div_lt_of_lt_mul hp⟩
  refine permutesBelow_of_injective (fun p hp => ?_) fun p q hp hq heq => ?_
  · obtain ⟨hx, hy⟩ := hcoords p hp
    rw [← Nat.pow_add, ← Nat.two_mul]
    exact mortonIndex_lt_two_pow hx hy
  · obtain ⟨hx, hy⟩ := hcoords p hp
    obtain ⟨hx', hy'⟩ := hcoords q hq
    obtain ⟨hmod, hdiv⟩ := mortonIndex_inj (by omega) (by omega) (by omega) (by omega) heq
    rw [← Nat.div_add_mod' p (2 ^ k), hmod, hdiv, Nat.div_add_mod']

end Sys2Proof.Machine
end

section
/-! SUPPORT. The Morton commands (42_morton.md R141 to R143). -/

namespace Sys2Proof.Machine

open Sys2Proof

/-! ### MORTON_INDEX -/

theorem mortonIndex_completesWith :
    CompletesWith .mortonIndex fun s => { s with status := statusDone, result := mortonWord s.xcoord s.ycoord } :=
  fun _ => rfl

/-- The one check of MORTON_INDEX is that of its coordinates. -/
theorem commandCheck_mortonIndex (s : State) :
    commandCheck .mortonIndex s = if s.xcoord.toNat ≤ 65535 ∧ s.ycoord.toNat ≤ 65535 then none else some .param := by
  simp only [commandCheck, mortonIndexCheck, firstRefusal, mortonCoordsOk]
  split_ifs <;> simp_all

/-! ### MORTON_SWZ and MORTON_UNSWZ -/

theorem exec_mortonSwz (s : State) : exec .mortonSwz s =
    .next (byteCommand (mortonCheck s) (transfer 0 s.e (swizzleMoves mortonIndex s.w s.hgt)) s) := rfl

theorem exec_mortonUnswz (s : State) : exec .mortonUnswz s =
    .next (byteCommand (mortonCheck s) (transfer 0 s.e (unswizzleMoves mortonIndex s.w s.hgt)) s) := rfl

/-- What the Morton commands ask for: a legal image of whole elements that fits SRC (42_morton.md R142). -/
structure MortonImage (s : State) (bs : List Byte) : Prop where
  src : ByteSource s bs
  dims : DimsLegal s
  esize : 1 ≤ s.e
  whole : bs.length % s.e = 0
  fits : s.w * s.hgt * s.e ≤ bs.length

section

variable {s : State} {bs : List Byte}

theorem MortonImage.check_eq_none (h : MortonImage s bs) : mortonCheck s = none := by
  refine (commandCheck_eq_none_iff (i := .mortonSwz) rfl s).2 ⟨Nat.one_le_iff_ne_zero.1 h.esize, ?_, ?_⟩
  · rw [ShapeLegal, h.src.1]
    exact ⟨h.dims, rfl, Nat.dvd_of_mod_eq_zero h.whole, h.fits⟩
  · simp [SharesElement, h.src.2]

theorem MortonImage.swz_ends (h : MortonImage s bs) {P : List Byte → Prop}
    (hP : P (transfer 0 s.e (swizzleMoves mortonIndex s.w s.hgt) bs)) : EndsWithBytes .mortonSwz s P :=
  endsWithBytes_of_byteCommand (exec_mortonSwz s) h.check_eq_none h.src hP

theorem MortonImage.unswz_ends (h : MortonImage s bs) {P : List Byte → Prop}
    (hP : P (transfer 0 s.e (unswizzleMoves mortonIndex s.w s.hgt) bs)) : EndsWithBytes .mortonUnswz s P :=
  endsWithBytes_of_byteCommand (exec_mortonUnswz s) h.check_eq_none h.src hP

/-- An output of the same length, moved to SRC, is again a legal image. -/
theorem MortonImage.image_movedBack (h : MortonImage s bs) {out : List Byte} (hlen : out.length = bs.length) :
    MortonImage (movedBack s out) out where
  src := movedBack_byteSource s out
  dims := h.dims
  esize := h.esize
  whole := hlen ▸ h.whole
  fits := hlen ▸ h.fits

theorem MortonImage.swz_then_unswz_ends (h : MortonImage s bs) {P : List Byte → Prop}
    (hP : P (transfer 0 s.e (unswizzleMoves mortonIndex s.w s.hgt)
      (transfer 0 s.e (swizzleMoves mortonIndex s.w s.hgt) bs))) :
    EndsWithBytes .mortonSwz s fun mid => EndsWithBytes .mortonUnswz (movedBack s mid) P :=
  h.swz_ends ((h.image_movedBack (length_transfer ..)).unswz_ends hP)

theorem MortonImage.unswz_then_swz_ends (h : MortonImage s bs) {P : List Byte → Prop}
    (hP : P (transfer 0 s.e (swizzleMoves mortonIndex s.w s.hgt)
      (transfer 0 s.e (unswizzleMoves mortonIndex s.w s.hgt) bs))) :
    EndsWithBytes .mortonUnswz s fun mid => EndsWithBytes .mortonSwz (movedBack s mid) P :=
  h.unswz_ends ((h.image_movedBack (length_transfer ..)).swz_ends hP)

theorem MortonImage.pixelsDistinct (h : MortonImage s bs) : PixelsDistinct mortonIndex s.w s.hgt :=
  let ⟨_, hw, _, hh⟩ := h.dims
  pixelsDistinct_mortonIndex hw hh

theorem MortonImage.pixel_lt (h : MortonImage s bs) {x y : Nat} (hx : x < s.w) (hy : y < s.hgt) :
    y * s.w + x < bs.length / s.e :=
  (row_major_lt hx hy).trans_le ((Nat.le_div_iff_mul_le h.esize).2 h.fits)

/-- MORTON_SWZ places each pixel whose index is in range (42_morton.md R142). -/
theorem MortonImage.getElem?_swizzle (h : MortonImage s bs) {x y j : Nat} (hx : x < s.w) (hy : y < s.hgt) (hj : j < s.e)
    (hix : mortonIndex x y < bs.length / s.e) :
    (transfer 0 s.e (swizzleMoves mortonIndex s.w s.hgt) bs)[mortonIndex x y * s.e + j]? =
      bs[(y * s.w + x) * s.e + j]? := by
  rw [getElem?_transfer_of_lt 0 h.esize _ h.whole (group_elem_lt hix hj), row_major_div _ hj, row_major_mod _ hj,
    h.pixelsDistinct.lastWriter_swizzleMoves _ hx hy, if_pos (h.pixel_lt hx hy), Option.elim_some]

/-- MORTON_SWZ leaves 0 in every other element. -/
theorem MortonImage.getElem?_swizzle_padding (h : MortonImage s bs) {i : Nat} (hi : i < bs.length)
    (hpad : ∀ x y, x < s.w → y < s.hgt → mortonIndex x y ≠ i / s.e) :
    (transfer 0 s.e (swizzleMoves mortonIndex s.w s.hgt) bs)[i]? = some 0 := by
  rw [getElem?_transfer_of_lt 0 h.esize _ h.whole hi, lastWriter_swizzleMoves_padding _ hpad, Option.elim_none]

/-- MORTON_UNSWZ fills each pixel from its index, or with 0 where that is out of range (42_morton.md R143). -/
theorem MortonImage.getElem?_unswizzle (h : MortonImage s bs) {x y j : Nat} (hx : x < s.w) (hy : y < s.hgt)
    (hj : j < s.e) :
    (transfer 0 s.e (unswizzleMoves mortonIndex s.w s.hgt) bs)[(y * s.w + x) * s.e + j]? =
      if mortonIndex x y < bs.length / s.e then bs[mortonIndex x y * s.e + j]? else some 0 := by
  rw [getElem?_transfer_of_lt 0 h.esize _ h.whole (group_elem_lt (h.pixel_lt hx hy) hj), row_major_div _ hj,
    row_major_mod _ hj, lastWriter_unswizzleMoves _ _ hx hy]
  split_ifs <;> rfl

/-- MORTON_UNSWZ leaves 0 after the image. -/
theorem MortonImage.getElem?_unswizzle_padding (h : MortonImage s bs) {i : Nat} (hi : i < bs.length)
    (hpad : s.w * s.hgt * s.e ≤ i) :
    (transfer 0 s.e (unswizzleMoves mortonIndex s.w s.hgt) bs)[i]? = some 0 := by
  rw [getElem?_transfer_of_lt 0 h.esize _ h.whole hi,
    lastWriter_unswizzleMoves_padding _ _ ((Nat.le_div_iff_mul_le h.esize).2 hpad), Option.elim_none]

/-- The two commands in a row keep the elements whose index is in range (42_morton.md R144). -/
theorem MortonImage.getElem?_unswizzle_swizzle (h : MortonImage s bs) {i : Nat} (hi : i < bs.length) :
    (transfer 0 s.e (unswizzleMoves mortonIndex s.w s.hgt)
        (transfer 0 s.e (swizzleMoves mortonIndex s.w s.hgt) bs))[i]? =
      if i / s.e < s.w * s.hgt ∧ mortonIndex (i / s.e % s.w) (i / s.e / s.w) < bs.length / s.e then bs[i]?
      else some 0 := by
  rw [getElem?_transfer_back 0 h.esize h.pixelsDistinct.sourcesUnique_swizzleMoves
    (fun p d => (mem_unswizzleMoves_iff_swap mortonIndex s.w s.hgt p d).1) h.whole hi]
  simp only [isSome_lastWriter_unswizzleMoves]

end

/-- A square image of a power of two, with no padding. -/
theorem mortonImage_square {s : State} {bs : List Byte} {k : Nat} (hsrc : ByteSource s bs) (hk : k ≤ 15)
    (hw : s.w = 2 ^ k) (hh : s.hgt = 2 ^ k) (he : 1 ≤ s.e) (hsize : bs.length = s.w * s.hgt * s.e) :
    MortonImage s bs where
  src := hsrc
  dims := by
    have hlow := Nat.one_le_two_pow (n := k)
    have hhigh : (2 : Nat) ^ k ≤ 2 ^ 15 := Nat.pow_le_pow_right Nat.two_pos hk
    unfold DimsLegal
    omega
  esize := he
  whole := by rw [hsize, Nat.mul_mod_left]
  fits := hsize.ge

end Sys2Proof.Machine
end

section
/-! The statements of the family of 42_morton.md, settled. -/

namespace Sys2Proof.Machine

open Sys2Proof

/-- Settles O39, bit by bit. -/
theorem mortonIndexInterleavesBits : Obligations.MortonIndexInterleavesBits :=
  ⟨fun x y _ _ _ hi => ⟨testBit_mortonIndex_even x y hi, testBit_mortonIndex_odd x y hi⟩, mortonIndex_lt,
    fun _ _ _ _ hx hy hx' hy' => mortonIndex_inj hx hy hx' hy'⟩

/-- Settles O40: the only check is that of the coordinates. -/
theorem mortonIndexCommandWritesResult : Obligations.MortonIndexCommandWritesResult := by
  intro s
  have hexec := mortonIndex_completesWith s
  rw [commandCheck_mortonIndex] at hexec
  constructor
  · intro hx hy
    rw [if_pos ⟨hx, hy⟩] at hexec
    exact ⟨_, hexec, fun i hi => ⟨getLsbD_mortonWord_even _ _ hi, getLsbD_mortonWord_odd _ _ hi⟩⟩
  · intro hlarge
    rw [if_neg (by omega)] at hexec
    exact hexec

/-- Settles O41: the checks pass, and the loops place and gather whole elements by their Morton index. -/
theorem mortonSwizzlesPlaceElements : Obligations.MortonSwizzlesPlaceElements := by
  intro s bs hsrc hdims he hwhole hfits
  have himage : MortonImage s bs := ⟨hsrc, hdims, he, hwhole, hfits⟩
  constructor
  · exact himage.swz_ends
      ⟨length_transfer .., fun _ _ _ => himage.getElem?_swizzle, fun _ => himage.getElem?_swizzle_padding⟩
  · exact himage.unswz_ends
      ⟨length_transfer .., fun _ _ _ => himage.getElem?_unswizzle, fun _ => himage.getElem?_unswizzle_padding⟩

/-- Settles O42: MORTON_UNSWZ makes the moves of MORTON_SWZ backwards, from the indices in range. -/
theorem mortonRoundTripKeepsReachableElements : Obligations.MortonRoundTripKeepsReachableElements := by
  intro s bs hsrc hdims he hwhole hfits
  have himage : MortonImage s bs := ⟨hsrc, hdims, he, hwhole, hfits⟩
  obtain ⟨t, u, out, ht, hu, -, -, hdst, rfl⟩ := (himage.swz_then_unswz_ends (P := Eq _) rfl).andThen
  exact ⟨t, u, _, ht, hu, hdst, by simp only [length_transfer], fun _ => himage.getElem?_unswizzle_swizzle⟩

/-- Settles O43: the Morton index permutes the square, so each command undoes the other's moves. -/
theorem mortonSquaresRoundTrip : Obligations.MortonSquaresRoundTrip := by
  intro s bs k hsrc hk hw hh he hsize
  have himage := mortonImage_square hsrc hk hw hh he hsize
  have hperm : PermutesImage mortonIndex s.w s.hgt := hw ▸ hh ▸ permutesImage_mortonIndex hk
  constructor
  · exact roundTrips_of_endsWithBytes hsrc (himage.swz_then_unswz_ends (hperm.unswizzle_swizzle 0 he hsize))
  · exact roundTrips_of_endsWithBytes hsrc (himage.unswz_then_swz_ends (hperm.swizzle_unswizzle 0 he hsize))

end Sys2Proof.Machine
end

section
/-! SUPPORT. Swizzles by a map of linear pixel indices (43_ps2.md R159, R160, R166, R167), what they leave, and when one list
of moves undoes another. -/

namespace Sys2Proof.Machine

open Sys2Proof

/-! ### The moves of a map and of its inverse -/

/-- The moves of a swizzle by a map: pixel `p` goes to `f p`. -/
theorem mem_mapMoves (f : Nat → Nat) (n d p : Nat) : (d, p) ∈ mapMoves f n ↔ p < n ∧ d = f p := by
  simp only [mapMoves, List.mem_map, List.mem_range, Prod.mk.injEq]
  constructor
  · rintro ⟨q, hq, rfl, rfl⟩
    exact ⟨hq, rfl⟩
  · rintro ⟨hp, rfl⟩
    exact ⟨p, hp, rfl, rfl⟩

/-- The unswizzle makes the moves of the swizzle backwards. -/
theorem mem_unmapMoves_iff_swap (f : Nat → Nat) (n p d : Nat) : (p, d) ∈ unmapMoves f n ↔ (d, p) ∈ mapMoves f n := by
  simp only [mapMoves, unmapMoves, List.mem_map, Prod.mk.injEq, and_comm]

theorem mem_unmapMoves (f : Nat → Nat) (n p d : Nat) : (p, d) ∈ unmapMoves f n ↔ p < n ∧ d = f p :=
  (mem_unmapMoves_iff_swap f n p d).trans (mem_mapMoves f n d p)

theorem sourcesUnique_unmapMoves (f : Nat → Nat) (n : Nat) : SourcesUnique (unmapMoves f n) := by
  intro p d d' hd hd'
  rw [((mem_unmapMoves ..).1 hd).2, ((mem_unmapMoves ..).1 hd').2]

/-- An unswizzle fills pixel `p` of the image from slot `f p`, where the source has it, and no other pixel. -/
theorem lastWriter_unmapMoves (f : Nat → Nat) (n N p : Nat) :
    lastWriter (unmapMoves f n) N p = if p < n ∧ f p < N then some (f p) else none := by
  by_cases hp : p < n
  · have hmem := (mem_unmapMoves f n p _).2 ⟨hp, rfl⟩
    rw [lastWriter_of_unique N hmem fun q hq => sourcesUnique_unmapMoves f n p _ q hmem hq]
    simp only [hp, true_and]
  · rw [if_neg fun h => hp h.1]
    exact (lastWriter_eq_none_iff ..).2 fun d hd => absurd ((mem_unmapMoves ..).1 hd).1 hp

/-- A swizzle writes no slot that is the image of no pixel. -/
theorem lastWriter_mapMoves_eq_none {f : Nat → Nat} {n d : Nat} (N : Nat) (hd : ∀ p, f p ≠ d) :
    lastWriter (mapMoves f n) N d = none :=
  (lastWriter_eq_none_iff ..).2 fun p hp => absurd ((mem_mapMoves ..).1 hp).2.symm (hd p)

/-! ### What they leave -/

/-- Element `i` after an unswizzle of groups of `e` elements. -/
theorem getElem?_transfer_unmapMoves {α : Type} (fill : α) {e : Nat} (he : 1 ≤ e) (f : Nat → Nat) (n : Nat)
    {src : List α} (hwhole : src.length % e = 0) {i : Nat} (hi : i < src.length) :
    (transfer fill e (unmapMoves f n) src)[i]? =
      if i / e < n ∧ f (i / e) < src.length / e then src[f (i / e) * e + i % e]? else some fill := by
  rw [getElem?_transfer_of_lt fill he _ hwhole hi, lastWriter_unmapMoves]
  split_ifs <;> rfl

/-- Pixel `p` after an unswizzle of 4-bit pixels. -/
theorem readNibble_transferNibbles_unmapMoves (f : Nat → Nat) (n : Nat) (src : List Byte) {p : Nat}
    (hp : p < 2 * src.length) :
    readNibble (transferNibbles (unmapMoves f n) src) p =
      if p < n ∧ f p < 2 * src.length then readNibble src (f p) else 0 := by
  rw [readNibble_transferNibbles _ src p hp, lastWriter_unmapMoves]
  split_ifs <;> rfl

/-- A swizzle over groups leaves what its moves place. -/
theorem transfer_placesGroups {e : Nat} (he : 1 ≤ e) (moves : List (Nat × Nat)) (src : List Byte) :
    PlacesGroups e moves src (transfer 0 e moves src) :=
  ⟨length_transfer .., fun d j hd hj => getElem?_transfer 0 e he moves src d j hd hj⟩

/-- A 4-bit swizzle leaves what its moves place. -/
theorem transferNibbles_places (moves : List (Nat × Nat)) (src : List Byte) :
    PlacesNibbles moves src (transferNibbles moves src) :=
  ⟨length_transferNibbles .., fun d hd => readNibble_transferNibbles moves src d hd⟩

/-! ### Moves that undo moves -/

/-- On a source of `n` groups the moves `back` undo the moves `moves`: each goes backwards along one of `moves`, no two of
which share a destination, and every group is reached. -/
structure Undoes (n : Nat) (back moves : List (Nat × Nat)) : Prop where
  unique : SourcesUnique moves
  reverses : ∀ p d, (p, d) ∈ back → (d, p) ∈ moves
  reaches : ∀ p, p < n → ∃ d, d < n ∧ (p, d) ∈ back

theorem Undoes.transfer_eq {α : Type} {n e : Nat} {back moves : List (Nat × Nat)} (h : Undoes n back moves) (fill : α)
    (he : 1 ≤ e) {src : List α} (hsize : src.length = n * e) :
    transfer fill e back (transfer fill e moves src) = src := by
  have hgroups : src.length / e = n := by rw [hsize, Nat.mul_div_cancel _ he]
  exact transfer_back_eq fill he h.unique h.reverses (by rw [hsize, Nat.mul_mod_left]) (hgroups.symm ▸ h.reaches)

/-- The 4-bit pixel that `back` fetches from `d` is the one that `moves` brought there. -/
theorem Undoes.transferNibbles_eq {n : Nat} {back moves : List (Nat × Nat)} (h : Undoes n back moves) {src : List Byte}
    (hsize : 2 * src.length = n) : transferNibbles back (transferNibbles moves src) = src := by
  refine eq_of_readNibble _ _ (by simp only [length_transferNibbles]) fun p hp => ?_
  simp only [length_transferNibbles] at hp
  rw [readNibble_transferNibbles _ _ p (by rwa [length_transferNibbles]), length_transferNibbles]
  obtain ⟨d, hd, hmem⟩ := h.reaches p (hsize ▸ hp)
  cases hback : lastWriter back (2 * src.length) p with
  | none => exact absurd ((lastWriter_eq_none_iff ..).1 hback d hmem) (by omega)
  | some d' =>
    obtain ⟨hmem', hd'⟩ := mem_of_lastWriter_eq_some hback
    have hmove := h.reverses p d' hmem'
    simp only
    rw [readNibble_transferNibbles _ _ d' hd', lastWriter_of_unique _ hmove fun q hq => h.unique d' p q hmove hq,
      if_pos hp]

theorem PermutesBelow.lt {n p : Nat} {f : Nat → Nat} (hf : PermutesBelow n f) (hp : p < n) : f p < n := hf.1 p hp

theorem PermutesBelow.eq_iff {n p q : Nat} {f : Nat → Nat} (hf : PermutesBelow n f) (hp : p < n) (hq : q < n) :
    f p = f q ↔ p = q :=
  ⟨hf.2.1 p q hp hq, congrArg f⟩

theorem PermutesBelow.exists_eq {n q : Nat} {f : Nat → Nat} (hf : PermutesBelow n f) (hq : q < n) :
    ∃ p, p < n ∧ f p = q :=
  hf.2.2 q hq

/-- Where the map is a bijection of the image, the unswizzle undoes the swizzle. -/
theorem PermutesBelow.unmap_undoes_map {n : Nat} {f : Nat → Nat} (hf : PermutesBelow n f) :
    Undoes n (unmapMoves f n) (mapMoves f n) where
  unique := by
    intro _ p q hp hq
    obtain ⟨hpn, rfl⟩ := (mem_mapMoves ..).1 hp
    obtain ⟨hqn, heq⟩ := (mem_mapMoves ..).1 hq
    exact (hf.eq_iff hqn hpn).1 heq.symm
  reverses p d := (mem_unmapMoves_iff_swap f n p d).1
  reaches p hp := ⟨f p, hf.lt hp, (mem_unmapMoves ..).2 ⟨hp, rfl⟩⟩

/-- And the swizzle undoes the unswizzle. -/
theorem PermutesBelow.map_undoes_unmap {n : Nat} {f : Nat → Nat} (hf : PermutesBelow n f) :
    Undoes n (mapMoves f n) (unmapMoves f n) where
  unique := sourcesUnique_unmapMoves f n
  reverses d p := (mem_unmapMoves_iff_swap f n p d).2
  reaches _ hd :=
    let ⟨p, hp, hpd⟩ := hf.exists_eq hd
    ⟨p, hp, (mem_mapMoves ..).2 ⟨hp, hpd.symm⟩⟩

end Sys2Proof.Machine
end

section
/-! SUPPORT. Two commands in a row, over bytes or over words, with MOVE SRC, DST between them (30_encoding.md R83). -/

namespace Sys2Proof.Machine

open Sys2Proof

/-- The state after a word command that left `out`, once the host has moved DST to SRC. -/
def wordsMovedBack (s : State) (out : List Word) : State :=
  { s with status := 0x00000001#32, mem := (s.mem.setDst (.words out)).moveDstToSrc }

theorem wordsMovedBack_wordSource (s : State) (out : List Word) : WordSource (wordsMovedBack s out) out := ⟨rfl, rfl⟩

/-- Two word commands that leave SRC as it was round-trip. -/
theorem roundTrips_of_endsWithWords {i j : Instr} {s : State} {ws : List Word} (hsrc : WordSource s ws)
    (h : EndsWithWords i s fun mid => EndsWithWords j (wordsMovedBack s mid) (· = ws)) : RoundTrips i j s := by
  obtain ⟨mid, hmid, out, hout, rfl⟩ := h
  exact ⟨_, _, hmid, hout, rfl, rfl, hsrc.1.symm⟩

/-- A byte command and then another, whose function gives back SRC, round-trip. -/
theorem roundTrips_of_byteCommands {i j : Instr} {s : State} {bs : List Byte} {c c' : Option Reason}
    {f g : List Byte → List Byte} (hsrc : ByteSource s bs) (hi : exec i s = .next (byteCommand c f s))
    (hj : exec j (movedBack s (f bs)) = .next (byteCommand c' g (movedBack s (f bs)))) (hc : c = none) (hc' : c' = none)
    (hback : g (f bs) = bs) : RoundTrips i j s :=
  roundTrips_of_endsWithBytes hsrc <| endsWithBytes_of_byteCommand hi hc hsrc <|
    endsWithBytes_of_byteCommand hj hc' (movedBack_byteSource s _) hback

/-- A word command and then another, whose function gives back SRC, round-trip. -/
theorem roundTrips_of_wordCommands {i j : Instr} {s : State} {ws : List Word} {c c' : Option Reason}
    {f g : List Word → List Word} (hsrc : WordSource s ws) (hi : exec i s = .next (wordCommand c f s))
    (hj : exec j (wordsMovedBack s (f ws)) = .next (wordCommand c' g (wordsMovedBack s (f ws)))) (hc : c = none)
    (hc' : c' = none) (hback : g (f ws) = ws) : RoundTrips i j s :=
  roundTrips_of_endsWithWords hsrc <| endsWithWords_of_wordCommand hi hc hsrc <|
    endsWithWords_of_wordCommand hj hc' (wordsMovedBack_wordSource s _) hback

end Sys2Proof.Machine
end

section
/-! SUPPORT. The palette reorder (43_ps2.md R150, R152). -/

namespace Sys2Proof.Machine

open Sys2Proof

/-! ### swap34 -/

/-- swap34 exchanges the digits of bits 3 and 4 and keeps the rest. -/
theorem swap34_digits (i : Nat) :
    swap34 i / 32 = i / 32 ∧ swap34 i / 16 % 2 = i / 8 % 2 ∧ swap34 i / 8 % 2 = i / 16 % 2 ∧
      swap34 i % 8 = i % 8 := by
  have hthree : i / 8 % 2 = 0 ∨ i / 8 % 2 = 1 := by omega
  have hfour : i / 16 % 2 = 0 ∨ i / 16 % 2 = 1 := by omega
  unfold swap34
  obtain h | h := hthree <;> obtain h' | h' := hfour <;> rw [h, h'] <;> omega

theorem swap34_swap34 (i : Nat) : swap34 (swap34 i) = i := by
  obtain ⟨hpart, hfour, hthree, hlow⟩ := swap34_digits i
  rw [swap34, hpart, hfour, hthree, hlow]
  omega

/-- swap34 stays in its part of 32 entries. -/
theorem swap34_lt {n i : Nat} (hn : n % 32 = 0) (hi : i < n) : swap34 i < n := by
  have := swap34_digits i
  omega

theorem testBit_swap34 (i b : Nat) :
    (swap34 i).testBit b = i.testBit (if b = 3 then 4 else if b = 4 then 3 else b) := by
  obtain ⟨hpart, hfour, hthree, hlow⟩ := swap34_digits i
  obtain hb | rfl | rfl | hb : b < 3 ∨ b = 3 ∨ b = 4 ∨ 5 ≤ b := by omega
  · have hmod : ∀ k : Nat, k.testBit b = (k % 2 ^ 3).testBit b := fun k => by
      rw [Nat.testBit_mod_two_pow, decide_eq_true hb, Bool.true_and]
    rw [if_neg (by omega), if_neg (by omega), hmod, hmod i]
    exact congrArg (Nat.testBit · b) hlow
  · simp [Nat.testBit_eq_decide_div_mod_eq, hthree]
  · simp [Nat.testBit_eq_decide_div_mod_eq, hfour]
  · obtain ⟨m, rfl⟩ := Nat.exists_eq_add_of_le hb
    have hdiv : ∀ k : Nat, k.testBit (5 + m) = (k / 2 ^ 5).testBit m := fun k => by
      rw [Nat.testBit_div_two_pow, Nat.add_comm]
    rw [if_neg (by omega), if_neg (by omega), hdiv, hdiv i]
    exact congrArg (Nat.testBit · m) hpart

/-! ### The moves -/

/-- The nest of loops visits each entry of the whole parts once, and fetches it from swap34. -/
theorem mem_paletteMoves {n : Nat} (hn : n % 32 = 0) (d p : Nat) :
    (d, p) ∈ paletteMoves n ↔ d < n ∧ p = swap34 d := by
  simp only [paletteMoves, List.mem_flatMap, List.mem_map, List.mem_range, Prod.mk.injEq]
  constructor
  · rintro ⟨part, hpart, block, hblock, stripe, hstripe, color, hcolor, rfl, rfl⟩
    unfold swap34
    omega
  · rintro ⟨hd, rfl⟩
    exact ⟨d / 32, by omega, d / 16 % 2, by omega, d / 8 % 2, by omega, d % 8, by omega, by omega,
      by unfold swap34; omega⟩

/-- The palette moves undo themselves (43_ps2.md R152). -/
theorem paletteMoves_undoes_self {n : Nat} (hn : n % 32 = 0) : Undoes n (paletteMoves n) (paletteMoves n) where
  unique := by
    intro d p q hp hq
    rw [((mem_paletteMoves hn ..).1 hp).2, ((mem_paletteMoves hn ..).1 hq).2]
  reverses := by
    intro p d h
    obtain ⟨hp, rfl⟩ := (mem_paletteMoves hn ..).1 h
    exact (mem_paletteMoves hn ..).2 ⟨swap34_lt hn hp, (swap34_swap34 p).symm⟩
  reaches p hp := ⟨swap34 p, swap34_lt hn hp, (mem_paletteMoves hn ..).2 ⟨hp, rfl⟩⟩

/-! ### The reorder -/

theorem length_restripe (ws : List Word) : (restripe ws).length = ws.length := length_transfer ..

theorem getElem?_restripe {ws : List Word} (hparts : ws.length % 32 = 0) {k : Nat} (hk : k < ws.length) :
    (restripe ws)[k]? = ws[swap34 k]? := by
  have hmem := (mem_paletteMoves hparts k _).2 ⟨hk, rfl⟩
  rw [restripe, getElem?_transfer_one _ _ ws k hk,
    lastWriter_of_unique _ hmem fun q hq => (paletteMoves_undoes_self hparts).unique k _ q hmem hq,
    if_pos (swap34_lt hparts hk)]

theorem restripe_restripe {ws : List Word} (hparts : ws.length % 32 = 0) : restripe (restripe ws) = ws := by
  rw [restripe, length_restripe]
  exact (paletteMoves_undoes_self hparts).transfer_eq _ le_rfl (Nat.mul_one _).symm

/-! ### The commands -/

theorem exec_palStripe (s : State) : exec .palStripe s = .next (wordCommand (paletteCheck s) restripe s) := rfl

theorem exec_palUnstripe (s : State) : exec .palUnstripe s = .next (wordCommand (paletteCheck s) restripe s) := rfl

/-- A palette of whole parts passes the checks (43_ps2.md R150). -/
theorem paletteCheck_eq_none {s : State} {ws : List Word} (hsrc : WordSource s ws) (hne : ws ≠ [])
    (hparts : ws.length % 32 = 0) : paletteCheck s = none := by
  obtain ⟨hwords, haliased⟩ := hsrc
  simp [paletteCheck, firstRefusal_eq_none, hwords, haliased, hne, hparts]

/-- A palette command ends with the palette reordered. -/
theorem palette_ends {i : Instr} (hi : i = .palStripe ∨ i = .palUnstripe) {s : State} {ws : List Word}
    (hsrc : WordSource s ws) (hne : ws ≠ []) (hparts : ws.length % 32 = 0) {P : List Word → Prop}
    (hP : P (restripe ws)) : EndsWithWords i s P := by
  have hcheck := paletteCheck_eq_none hsrc hne hparts
  obtain rfl | rfl := hi
  · exact endsWithWords_of_wordCommand (exec_palStripe s) hcheck hsrc hP
  · exact endsWithWords_of_wordCommand (exec_palUnstripe s) hcheck hsrc hP

/-- Two palette commands in a row give back SRC. -/
theorem palette_roundTrips {i j : Instr} (hi : i = .palStripe ∨ i = .palUnstripe)
    (hj : j = .palStripe ∨ j = .palUnstripe) {s : State} {ws : List Word} (hsrc : WordSource s ws) (hne : ws ≠ [])
    (hparts : ws.length % 32 = 0) : RoundTrips i j s := by
  refine roundTrips_of_endsWithWords hsrc (palette_ends hi hsrc hne hparts ?_)
  refine palette_ends hj (wordsMovedBack_wordSource s _) ?_ ?_ (restripe_restripe hparts)
  · exact List.ne_nil_of_length_pos (by rw [length_restripe]; exact List.length_pos_of_ne_nil hne)
  · rwa [length_restripe]

end Sys2Proof.Machine
end

section
/-! SUPPORT. The default PS2_IDX8 (43_ps2.md R153, R170) and the round trips of the PS2 8bpp and 32bpp commands. -/

namespace Sys2Proof.Machine

open Sys2Proof

/-! ### The default index, by its digits -/

/-- The pair of rows of the destination that holds pixels of row `y`. -/
def ps2RowPair (y : Nat) : Nat := y / 4 * 2 + y % 2

/-- The place of pixel (x, y) in its pair of rows: 32 bytes for 16 columns, in words of four bytes. -/
def ps2InPair (x y : Nat) : Nat :=
  x / 16 * 32 + (x + (y + 2) / 4 % 2 * 4) % 8 * 4 + (y / 2 % 2 + x / 8 % 2 * 2)

theorem and_two_eq (n : Nat) : n &&& 2 = n / 2 % 2 * 2 := by
  rw [show 2 = 2 ^ 1 from rfl, Nat.and_two_pow, Nat.testBit_eq_decide_div_mod_eq, pow_one]
  obtain h | h := Nat.mod_two_eq_zero_or_one (n / 2) <;> simp [h]

theorem and_seven_eq (n : Nat) : n &&& 7 = n % 8 := Nat.and_two_pow_sub_one_eq_mod n 3

theorem ps2Idx8_eq (w x y : Nat) : ps2Idx8 w x y = ps2RowPair y * (2 * w) + ps2InPair x y := by
  have hrow : (y / 4 * 4 / 2 + y % 2) % 8 = y / 4 % 4 * 2 + y % 2 := by omega
  have hblock : ps2RowPair y = y / 16 * 8 + (y / 4 % 4 * 2 + y % 2) := by unfold ps2RowPair; omega
  have hcolumn : x / 2 ^ 2 / 2 % 2 = x / 8 % 2 := by omega
  simp only [ps2Idx8, ps2InPair, and_seven_eq, and_two_eq, Nat.and_one_is_mod, Nat.shiftRight_eq_div_pow, hcolumn]
  rw [pow_one, hrow, hblock]
  ring

theorem ps2InPair_lt {w x : Nat} (y : Nat) (hw : w % 16 = 0) (hx : x < w) : ps2InPair x y < 2 * w := by
  unfold ps2InPair
  omega

theorem ps2RowPair_lt {h y : Nat} (hh : h % 4 = 0) (hy : y < h) : ps2RowPair y < h / 2 := by
  unfold ps2RowPair
  omega

/-- The pair of rows and the place in it tell the pixel: the word's byte gives bit 1 of `y` and bit 3 of `x`, and then bit 2
of `x` can be told from the swap. -/
theorem ps2_pixel_inj {x y x' y' : Nat} (hrow : ps2RowPair y = ps2RowPair y') (hcol : ps2InPair x y = ps2InPair x' y') :
    x = x' ∧ y = y' := by
  unfold ps2RowPair at hrow
  unfold ps2InPair at hcol
  have hbyte : y / 2 % 2 = y' / 2 % 2 ∧ x / 8 % 2 = x' / 8 % 2 := by omega
  obtain rfl : y = y' := by omega
  omega

/-- On whole 16x4 tiles the default index permutes the image (43_ps2.md R170). -/
theorem permutesImage_ps2Idx8 {w h : Nat} (hw : w % 16 = 0) (hh : h % 4 = 0) : PermutesImage (ps2Idx8 w) w h := by
  refine permutesBelow_of_injective (fun p hp => ?_) fun p q hp hq heq => ?_
  · have hwpos : 0 < w := Nat.pos_of_mul_pos_right (Nat.zero_lt_of_lt hp)
    calc ps2Idx8 w (p % w) (p / w) = _ := ps2Idx8_eq ..
      _ < 2 * w * (h / 2) :=
        row_major_lt (ps2InPair_lt _ hw (Nat.mod_lt p hwpos)) (ps2RowPair_lt hh (Nat.div_lt_of_lt_mul hp))
      _ = w * (h / 2 * 2) := by ring
      _ = w * h := by rw [Nat.div_mul_cancel (by omega)]
  · have hwpos : 0 < w := Nat.pos_of_mul_pos_right (Nat.zero_lt_of_lt hp)
    simp only [ps2Idx8_eq] at heq
    obtain ⟨hcol, hrow⟩ :=
      row_major_inj (ps2InPair_lt _ hw (Nat.mod_lt p hwpos)) (ps2InPair_lt _ hw (Nat.mod_lt q hwpos)) heq
    obtain ⟨hmod, hdiv⟩ := ps2_pixel_inj hrow hcol
    rw [← Nat.div_add_mod' p w, hmod, hdiv, Nat.div_add_mod']

/-! ### Round trips -/

/-- Where the configured index permutes the image, the byte commands undo each other. -/
theorem ps2Bytes_roundTrip {s : State} {bs : List Byte} (hdims : DimsLegal s)
    (hperm : PermutesImage (ps2IdxOf s.ps2Index s.w) s.w s.hgt) (hsrc : ByteSource s bs)
    (hsize : bs.length = s.w * s.hgt) :
    RoundTrips .ps2Swz8 .ps2Unswz8 s ∧ RoundTrips .ps2Unswz8 .ps2Swz8 s := by
  have hcheck := bytePixelCheck_eq_none hsrc hdims hsize.ge
  have hback : ∀ moves, bytePixelCheck (movedBack s (transfer 0 1 moves bs)) = none := fun moves =>
    bytePixelCheck_eq_none (movedBack_byteSource s _) hdims ((length_transfer ..).trans hsize).ge
  have hgroups : bs.length = s.w * s.hgt * 1 := hsize.trans (Nat.mul_one _).symm
  constructor
  · exact roundTrips_of_byteCommands hsrc (exec_ps2Swz8 s) (exec_ps2Unswz8 _) hcheck (hback _)
      (hperm.unswizzle_swizzle 0 le_rfl hgroups)
  · exact roundTrips_of_byteCommands hsrc (exec_ps2Unswz8 s) (exec_ps2Swz8 _) hcheck (hback _)
      (hperm.swizzle_unswizzle 0 le_rfl hgroups)

/-- And so do the word commands. -/
theorem ps2Words_roundTrip {s : State} {ws : List Word} (hdims : DimsLegal s)
    (hperm : PermutesImage (ps2IdxOf s.ps2Index s.w) s.w s.hgt) (hsrc : WordSource s ws)
    (hsize : ws.length = s.w * s.hgt) :
    RoundTrips .ps2Swz32 .ps2Unswz32 s ∧ RoundTrips .ps2Unswz32 .ps2Swz32 s := by
  have hcheck := wordPixelCheck_eq_none hsrc hdims hsize.ge
  have hback : ∀ moves, wordPixelCheck (wordsMovedBack s (transfer 0 1 moves ws)) = none := fun moves =>
    wordPixelCheck_eq_none (wordsMovedBack_wordSource s _) hdims ((length_transfer ..).trans hsize).ge
  have hgroups : ws.length = s.w * s.hgt * 1 := hsize.trans (Nat.mul_one _).symm
  constructor
  · exact roundTrips_of_wordCommands hsrc (exec_ps2Swz32 s) (exec_ps2Unswz32 _) hcheck (hback _)
      (hperm.unswizzle_swizzle 0 le_rfl hgroups)
  · exact roundTrips_of_wordCommands hsrc (exec_ps2Unswz32 s) (exec_ps2Swz32 _) hcheck (hback _)
      (hperm.swizzle_unswizzle 0 le_rfl hgroups)

end Sys2Proof.Machine
end

section
/-! SUPPORT. The laws of the EA-style and SUBA maps (43_ps2.md R158, R163, R164), from how the model builds them
(logs 12, 13). -/

namespace Sys2Proof.Machine

open Sys2Proof

/-! ### Tiles -/

/-- Two pixels lie in one tile where their columns and rows of tiles are the same. -/
theorem tileOf_eq_iff (ph y y' : Nat) {pw w x x' : Nat} (hpw : pw ∣ w) (hx : x < w) (hx' : x' < w) :
    tileOf pw ph w (y * w + x) = tileOf pw ph w (y' * w + x') ↔ x / pw = x' / pw ∧ y / ph = y' / ph := by
  rw [tileOf_row_major pw ph y hx, tileOf_row_major pw ph y' hx']
  constructor
  · exact row_major_inj (Nat.div_lt_div_of_lt_of_dvd hpw hx) (Nat.div_lt_div_of_lt_of_dvd hpw hx')
  · rintro ⟨hcol, hrow⟩
    rw [hcol, hrow]

theorem tileOf_lt {pw ph w h p : Nat} (hpw : pw ∣ w) (hph : ph ∣ h) (hp : p < w * h) :
    tileOf pw ph w p < w / pw * (h / ph) :=
  have hw : 0 < w := Nat.pos_of_mul_pos_right (Nat.zero_lt_of_lt hp)
  row_major_lt (Nat.div_lt_div_of_lt_of_dvd hpw (Nat.mod_lt p hw))
    (Nat.div_lt_div_of_lt_of_dvd hph (Nat.div_lt_of_lt_mul hp))

/-- The tile and the place in it tell the pixel. -/
theorem eq_of_tileOf_of_inTile {pw ph w p q : Nat} (hpos : 0 < pw) (hpw : pw ∣ w) (hw : 0 < w)
    (htile : tileOf pw ph w p = tileOf pw ph w q) (hplace : inTile pw ph w p = inTile pw ph w q) : p = q := by
  rw [← Nat.div_add_mod' p w, ← Nat.div_add_mod' q w] at htile
  obtain ⟨hxdiv, hydiv⟩ := (tileOf_eq_iff ph _ _ hpw (Nat.mod_lt p hw) (Nat.mod_lt q hw)).1 htile
  obtain ⟨hxmod, hymod⟩ := row_major_inj (Nat.mod_lt _ hpos) (Nat.mod_lt _ hpos) hplace
  have hx : p % w = q % w := by rw [← Nat.div_add_mod' (p % w) pw, hxdiv, hxmod, Nat.div_add_mod']
  have hy : p / w = q / w := by rw [← Nat.div_add_mod' (p / w) ph, hydiv, hymod, Nat.div_add_mod']
  rw [← Nat.div_add_mod' p w, hx, hy, Nat.div_add_mod']

/-! ### Maps of tiles -/

theorem permutesBelow_permAt {n : Nat} (e : Equiv.Perm (Fin n)) : PermutesBelow n (permAt e) :=
  permutesBelow_of_injective (fun _ => permAt_lt e) fun _ _ hp hq => (permAt_inj e hp hq).1

section

variable {pw ph w h : Nat} {unit : Nat → Nat} {slot : Nat → Nat → Nat}

/-- The run a pixel goes to is the one of its tile. -/
theorem tileMap_div (hpw : 0 < pw) (hph : 0 < ph) (hslot : ∀ k, PermutesBelow (pw * ph) (slot k)) (p : Nat) :
    tileMap pw ph unit slot w p / (pw * ph) = unit (tileOf pw ph w p) :=
  row_major_div _ ((hslot _).lt (inTile_lt pw ph w p hpw hph))

/-- A pixel stays in the run of its tile. -/
theorem tileMap_mem_run (hpw : 0 < pw) (hph : 0 < ph) (hslot : ∀ k, PermutesBelow (pw * ph) (slot k)) (p : Nat) :
    unit (tileOf pw ph w p) * (pw * ph) ≤ tileMap pw ph unit slot w p ∧
      tileMap pw ph unit slot w p < unit (tileOf pw ph w p) * (pw * ph) + pw * ph :=
  ⟨Nat.le_add_right .., Nat.add_lt_add_left ((hslot _).lt (inTile_lt pw ph w p hpw hph)) _⟩

/-- Permuting the tiles of a grid and the pixels of each tile permutes the image. -/
theorem permutesBelow_tileMap (hpw : 0 < pw) (hph : 0 < ph) (hw : pw ∣ w) (hh : ph ∣ h)
    (hunit : PermutesBelow (w / pw * (h / ph)) unit) (hslot : ∀ k, PermutesBelow (pw * ph) (slot k)) :
    PermutesBelow (w * h) (tileMap pw ph unit slot w) := by
  refine permutesBelow_of_injective (fun p hp => ?_) fun p q hp hq heq => ?_
  · calc tileMap pw ph unit slot w p < pw * ph * (w / pw * (h / ph)) :=
        row_major_lt ((hslot _).lt (inTile_lt pw ph w p hpw hph)) (hunit.lt (tileOf_lt hw hh hp))
      _ = w / pw * pw * (h / ph * ph) := by ring
      _ = w * h := by rw [Nat.div_mul_cancel hw, Nat.div_mul_cancel hh]
  · have hunits : unit (tileOf pw ph w p) = unit (tileOf pw ph w q) := by
      simpa only [tileMap_div hpw hph hslot] using congrArg (· / (pw * ph)) heq
    have htile := (hunit.eq_iff (tileOf_lt hw hh hp) (tileOf_lt hw hh hq)).1 hunits
    have hslots : slot (tileOf pw ph w q) (inTile pw ph w p) = slot (tileOf pw ph w q) (inTile pw ph w q) := by
      simpa only [tileMap, htile, Nat.add_left_cancel_iff] using heq
    have hplace := ((hslot _).eq_iff (inTile_lt pw ph w p hpw hph) (inTile_lt pw ph w q hpw hph)).1 hslots
    exact eq_of_tileOf_of_inTile hpw hw (Nat.pos_of_mul_pos_right (Nat.zero_lt_of_lt hp)) htile hplace

/-- Pixels of a grid share a run where they share a tile. -/
theorem tileMap_div_eq_iff (hpw : 0 < pw) (hph : 0 < ph) (hw : pw ∣ w) (hh : ph ∣ h)
    (hunit : PermutesBelow (w / pw * (h / ph)) unit) (hslot : ∀ k, PermutesBelow (pw * ph) (slot k)) {x y x' y' : Nat}
    (hx : x < w) (hy : y < h) (hx' : x' < w) (hy' : y' < h) :
    tileMap pw ph unit slot w (y * w + x) / (pw * ph) = tileMap pw ph unit slot w (y' * w + x') / (pw * ph) ↔
      x / pw = x' / pw ∧ y / ph = y' / ph := by
  rw [tileMap_div hpw hph hslot, tileMap_div hpw hph hslot,
    hunit.eq_iff (tileOf_lt hw hh (row_major_lt hx hy)) (tileOf_lt hw hh (row_major_lt hx' hy')),
    tileOf_eq_iff ph y y' hw hx hx']

end

/-! ### EA4_MAP -/

theorem ea4Map_of_grid {w h : Nat} (hw : w % 128 = 0) (hh : h % 128 = 0) :
    ea4Map w h = tileMap 32 16 (permAt (Config.ea4Unit ea4Tables w h ((w / 32) * (h / 16))))
      (fun k => permAt (Config.ea4Slot ea4Tables w h k)) w :=
  funext fun _ => if_pos ⟨hw, hh⟩

theorem ea4Map_of_not_grid {w h : Nat} (hgrid : ¬ (w % 128 = 0 ∧ h % 128 = 0)) (p : Nat) :
    ea4Map w h p = ea4MapOffGrid w h p := if_neg hgrid

/-- R158 (b): on the page grid EA4_MAP permutes the image. -/
theorem permutesBelow_ea4Map {w h : Nat} (hw : w % 128 = 0) (hh : h % 128 = 0) : PermutesBelow (w * h) (ea4Map w h) := by
  rw [ea4Map_of_grid hw hh]
  exact permutesBelow_tileMap (by decide) (by decide) (by omega) (by omega) (permutesBelow_permAt _)
    fun _ => permutesBelow_permAt _

/-- R158 (c) on the page grid: pixels share a unit where they share a block. -/
theorem ea4Map_unit_eq_iff_of_grid {w h x y x' y' : Nat} (hw : w % 128 = 0) (hh : h % 128 = 0) (hx : x < w) (hy : y < h)
    (hx' : x' < w) (hy' : y' < h) :
    ea4Map w h (y * w + x) / 512 = ea4Map w h (y' * w + x') / 512 ↔ x / 32 = x' / 32 ∧ y / 16 = y' / 16 := by
  rw [ea4Map_of_grid hw hh]
  exact tileMap_div_eq_iff (by decide) (by decide) (by omega) (by omega) (permutesBelow_permAt _)
    (fun _ => permutesBelow_permAt _) hx hy hx' hy'

/-- Off the page grid a pixel of a whole page goes to the unit of its block in that page (log 29). -/
theorem ea4MapOffGrid_div {w h x y : Nat} (hx : x < w) (hcol : (x / 128 + 1) * 128 ≤ w)
    (hrow : (y / 128 + 1) * 128 ≤ h) :
    ea4MapOffGrid w h (y * w + x) / 512 =
      Config.ea4PageUnit ea4Tables w h (y / 128 * (w / 128) + x / 128) (tileOf 32 16 128 (y % 128 * 128 + x % 128)) := by
  rw [ea4MapOffGrid, if_pos ((inWholePage_row_major 128 h y hx).2 ⟨hcol, hrow⟩),
    row_major_div _ (Nat.mod_lt _ (by decide)), tileOf_row_major 128 128 y hx, inTile_row_major 128 128 y hx]

/-- R158 (c) off the page grid: in a whole page, pixels share a unit where they share a block. -/
theorem ea4MapOffGrid_unit_eq_iff {w h x y x' y' : Nat} (hcol : (x / 128 + 1) * 128 ≤ w)
    (hrow : (y / 128 + 1) * 128 ≤ h) (hsamecol : x' / 128 = x / 128) (hsamerow : y' / 128 = y / 128) :
    ea4MapOffGrid w h (y * w + x) / 512 = ea4MapOffGrid w h (y' * w + x') / 512 ↔
      x / 32 = x' / 32 ∧ y / 16 = y' / 16 := by
  rw [ea4MapOffGrid_div (by omega) hcol hrow, ea4MapOffGrid_div (by omega) (hsamecol ▸ hcol) (hsamerow ▸ hrow),
    hsamecol, hsamerow, (Equiv.injective _).eq_iff,
    tileOf_eq_iff 16 _ _ (by decide) (Nat.mod_lt x (by decide)) (Nat.mod_lt x' (by decide))]
  omega

/-! ### The SUBA maps -/

theorem subaMap_of_grid {k : Config.SubaKind} {w h : Nat} (hw : w % subaSide k = 0) (hh : h % subaSide k = 0) :
    subaMap k w h = tileMap (subaSide k) (subaSide k)
      (permAt (Config.subaPage k w h ((w / subaSide k) * (h / subaSide k))))
      (fun page => permAt (Config.subaSlot k w h page (subaSide k * subaSide k))) w :=
  funext fun _ => if_pos ⟨hw, hh⟩

theorem subaMap_of_not_grid {k : Config.SubaKind} {w h : Nat} (hgrid : ¬ (w % subaSide k = 0 ∧ h % subaSide k = 0))
    (p : Nat) : subaMap k w h p = subaMapOffGrid k w h p := if_neg hgrid

theorem subaSide_pos (k : Config.SubaKind) : 0 < subaSide k := by cases k <;> decide

/-- R163 (b): on the page grid a SUBA map permutes the image. -/
theorem permutesBelow_subaMap {k : Config.SubaKind} {w h : Nat} (hw : w % subaSide k = 0) (hh : h % subaSide k = 0) :
    PermutesBelow (w * h) (subaMap k w h) := by
  rw [subaMap_of_grid hw hh]
  exact permutesBelow_tileMap (subaSide_pos k) (subaSide_pos k) (Nat.dvd_of_mod_eq_zero hw) (Nat.dvd_of_mod_eq_zero hh)
    (permutesBelow_permAt _) fun _ => permutesBelow_permAt _

/-- Off the page grid a pixel of a whole page stays in the run of its page. -/
theorem subaMapOffGrid_mem_run {k : Config.SubaKind} {w h p : Nat} (hpage : inWholePage (subaSide k) w h p = true) :
    Config.subaRun k w h (tileOf (subaSide k) (subaSide k) w p) ≤ subaMapOffGrid k w h p ∧
      subaMapOffGrid k w h p <
        Config.subaRun k w h (tileOf (subaSide k) (subaSide k) w p) + subaSide k * subaSide k := by
  have hslot : Config.subaFree k w h p % (subaSide k * subaSide k) < subaSide k * subaSide k :=
    Nat.mod_lt _ (Nat.mul_pos (subaSide_pos k) (subaSide_pos k))
  have hplace := Nat.le_add_right (Config.subaRun k w h (tileOf (subaSide k) (subaSide k) w p))
    (Config.subaFree k w h p % (subaSide k * subaSide k))
  simp only [subaMapOffGrid, subaRunStart, subaRunSlot, if_pos hpage]
  cases k with
  | suba4 => exact offOddTail_mem_run (w * h) hplace (Nat.add_lt_add_left hslot _) (by decide)
  | suba8 | suba16 => exact ⟨hplace, Nat.add_lt_add_left hslot _⟩

/-- R163 (c): the pixels of a whole page go to one run of as many slots, on the page grid and off it. -/
theorem exists_run_of_page (k : Config.SubaKind) {w h X Y : Nat} (hX : (X + 1) * subaSide k ≤ w)
    (hY : (Y + 1) * subaSide k ≤ h) :
    ∃ start, ∀ x y, x / subaSide k = X → y / subaSide k = Y →
      start ≤ subaMap k w h (y * w + x) ∧ subaMap k w h (y * w + x) < start + subaSide k * subaSide k := by
  have hinside : ∀ x, x / subaSide k = X → x < w := fun x hx =>
    (Nat.lt_mul_of_div_lt (by omega) (subaSide_pos k)).trans_le hX
  have htile : ∀ x y, x / subaSide k = X → y / subaSide k = Y →
      tileOf (subaSide k) (subaSide k) w (y * w + x) = Y * (w / subaSide k) + X := by
    intro x y hx hy
    rw [tileOf_row_major _ _ y (hinside x hx), hx, hy]
  by_cases hgrid : w % subaSide k = 0 ∧ h % subaSide k = 0
  · refine ⟨permAt (Config.subaPage k w h (w / subaSide k * (h / subaSide k))) (Y * (w / subaSide k) + X) *
      (subaSide k * subaSide k), fun x y hx hy => ?_⟩
    rw [subaMap_of_grid hgrid.1 hgrid.2, ← htile x y hx hy]
    exact tileMap_mem_run (subaSide_pos k) (subaSide_pos k) (fun _ => permutesBelow_permAt _) _
  · refine ⟨Config.subaRun k w h (Y * (w / subaSide k) + X), fun x y hx hy => ?_⟩
    rw [subaMap_of_not_grid hgrid, ← htile x y hx hy]
    refine subaMapOffGrid_mem_run ((inWholePage_row_major _ h y (hinside x hx)).2 ?_)
    rw [hx, hy]
    exact ⟨hX, hY⟩

/-- R164: an odd number of pixels is off the page grid, and there no pixel goes to a high half byte of the tail. -/
theorem subaMap_not_high_half {w h : Nat} (hodd : w * h % 2 = 1) (p : Nat) :
    ¬ (subaMap .suba4 w h p % 2 = 1 ∧ w * h ≤ subaMap .suba4 w h p) := by
  have hgrid : ¬ (w % subaSide .suba4 = 0 ∧ h % subaSide .suba4 = 0) := by
    rintro ⟨hw, -⟩
    have hside : 2 ∣ w := (show 2 ∣ subaSide .suba4 by decide).trans (Nat.dvd_of_mod_eq_zero hw)
    have heven := Nat.dvd_mul_right_of_dvd hside h
    omega
  rw [subaMap_of_not_grid hgrid]
  exact offOddTail_not_high_half _ _ hodd

end Sys2Proof.Machine
end

section
/-! SUPPORT. The EA-style and SUBA commands (43_ps2.md R159, R160, R164 to R169). -/

namespace Sys2Proof.Machine

open Sys2Proof

/-! ### The checks -/

/-- A 4-bit image of legal dimensions that fits SRC passes the checks (43_ps2.md R159, R164). -/
theorem nibblePixelCheck_eq_none {s : State} {bs : List Byte} (hsrc : ByteSource s bs) (hdims : DimsLegal s)
    (hsize : s.w * s.hgt ≤ 2 * bs.length) : nibblePixelCheck s = none := by
  obtain ⟨hbytes, haliased⟩ := hsrc
  simp [nibblePixelCheck, firstRefusal_eq_none, hbytes, haliased, (dimsOk_iff s).2 hdims, hsize]

/-- A 16-bit image of legal dimensions that fits a SRC of whole pixels passes the checks (43_ps2.md R168). -/
theorem pairPixelCheck_eq_none {s : State} {bs : List Byte} (hsrc : ByteSource s bs) (hdims : DimsLegal s)
    (hwhole : bs.length % 2 = 0) (hsize : 2 * (s.w * s.hgt) ≤ bs.length) : pairPixelCheck s = none := by
  obtain ⟨hbytes, haliased⟩ := hsrc
  simp [pairPixelCheck, firstRefusal_eq_none, hbytes, haliased, (dimsOk_iff s).2 hdims, hwhole, hsize]

/-! ### The commands -/

/-- Command `i` makes the checks `check` and then runs the loop `run` over the moves of a swizzle by the map `f`. -/
def SwizzlesByMap (i : Instr) (check : State → Option Reason) (run : List (Nat × Nat) → List Byte → List Byte)
    (f : Nat → Nat → Nat → Nat) : Prop :=
  ∀ s, exec i s = .next (byteCommand (check s) (run (mapMoves (f s.w s.hgt) (s.w * s.hgt))) s)

/-- The same over the moves of the unswizzle. -/
def UnswizzlesByMap (i : Instr) (check : State → Option Reason) (run : List (Nat × Nat) → List Byte → List Byte)
    (f : Nat → Nat → Nat → Nat) : Prop :=
  ∀ s, exec i s = .next (byteCommand (check s) (run (unmapMoves (f s.w s.hgt) (s.w * s.hgt))) s)

theorem ps2Swz4_swizzles : SwizzlesByMap .ps2Swz4 nibblePixelCheck transferNibbles ea4Map := fun _ => rfl

theorem ps2Unswz4_unswizzles : UnswizzlesByMap .ps2Unswz4 nibblePixelCheck transferNibbles ea4Map := fun _ => rfl

theorem subaSwz4_swizzles : SwizzlesByMap .subaSwz4 nibblePixelCheck transferNibbles (subaMap .suba4) := fun _ => rfl

theorem subaUnswz4_unswizzles : UnswizzlesByMap .subaUnswz4 nibblePixelCheck transferNibbles (subaMap .suba4) :=
  fun _ => rfl

theorem subaSwz8_swizzles : SwizzlesByMap .subaSwz8 bytePixelCheck (transfer 0 1) (subaMap .suba8) := fun _ => rfl

theorem subaUnswz8_unswizzles : UnswizzlesByMap .subaUnswz8 bytePixelCheck (transfer 0 1) (subaMap .suba8) := fun _ => rfl

theorem subaSwz16_swizzles : SwizzlesByMap .subaSwz16 pairPixelCheck (transfer 0 2) (subaMap .suba16) := fun _ => rfl

theorem subaUnswz16_unswizzles : UnswizzlesByMap .subaUnswz16 pairPixelCheck (transfer 0 2) (subaMap .suba16) :=
  fun _ => rfl

/-! ### SUBA_SWZ4 of an odd number of pixels -/

/-- The last half byte, which no pixel of an odd image goes to, stays 0 (43_ps2.md R164). -/
theorem readNibble_suba4_last {w h : Nat} {src : List Byte} (hodd : w * h % 2 = 1) (hsize : w * h ≤ 2 * src.length) :
    readNibble (transferNibbles (mapMoves (subaMap .suba4 w h) (w * h)) src) (2 * src.length - 1) = 0 := by
  have hunreached : ∀ p, subaMap .suba4 w h p ≠ 2 * src.length - 1 := fun p hp =>
    subaMap_not_high_half hodd p (by omega)
  rw [readNibble_transferNibbles _ _ _ (by omega), lastWriter_mapMoves_eq_none _ hunreached]

/-! ### Round trips -/

/-- A swizzle and an unswizzle by a map that permutes the image undo each other, where the checks pass also on an output
moved to SRC and the loop over moves is undone by the loop over moves that undo them. -/
theorem mapCommands_roundTrip {i j : Instr} {check : State → Option Reason}
    {run : List (Nat × Nat) → List Byte → List Byte} {f : Nat → Nat → Nat → Nat} {s : State} {bs : List Byte}
    (hi : SwizzlesByMap i check run f) (hj : UnswizzlesByMap j check run f) (hsrc : ByteSource s bs)
    (hperm : PermutesBelow (s.w * s.hgt) (f s.w s.hgt)) (hcheck : check s = none)
    (hback : ∀ moves, check (movedBack s (run moves bs)) = none)
    (hundo : ∀ {back moves}, Undoes (s.w * s.hgt) back moves → run back (run moves bs) = bs) :
    RoundTrips i j s ∧ RoundTrips j i s :=
  ⟨roundTrips_of_byteCommands hsrc (hi s) (hj _) hcheck (hback _) (hundo hperm.unmap_undoes_map),
    roundTrips_of_byteCommands hsrc (hj s) (hi _) hcheck (hback _) (hundo hperm.map_undoes_unmap)⟩

/-- 4-bit commands of an image without padding undo each other where their map permutes it. -/
theorem nibbleCommands_roundTrip {i j : Instr} {f : Nat → Nat → Nat → Nat} {s : State} {bs : List Byte}
    (hi : SwizzlesByMap i nibblePixelCheck transferNibbles f) (hj : UnswizzlesByMap j nibblePixelCheck transferNibbles f)
    (hsrc : ByteSource s bs) (hdims : DimsLegal s) (hsize : 2 * bs.length = s.w * s.hgt)
    (hperm : PermutesBelow (s.w * s.hgt) (f s.w s.hgt)) : RoundTrips i j s ∧ RoundTrips j i s := by
  refine mapCommands_roundTrip hi hj hsrc hperm (nibblePixelCheck_eq_none hsrc hdims hsize.ge) (fun moves => ?_)
    fun h => h.transferNibbles_eq hsize
  refine nibblePixelCheck_eq_none (movedBack_byteSource s _) hdims ?_
  rw [length_transferNibbles]
  exact hsize.ge

theorem suba8_roundTrip {s : State} {bs : List Byte} (hsrc : ByteSource s bs) (hdims : DimsLegal s)
    (hsize : bs.length = s.w * s.hgt) (hperm : PermutesBelow (s.w * s.hgt) (subaMap .suba8 s.w s.hgt)) :
    RoundTrips .subaSwz8 .subaUnswz8 s ∧ RoundTrips .subaUnswz8 .subaSwz8 s :=
  mapCommands_roundTrip subaSwz8_swizzles subaUnswz8_unswizzles hsrc hperm (bytePixelCheck_eq_none hsrc hdims hsize.ge)
    (fun moves => bytePixelCheck_eq_none (movedBack_byteSource s _) hdims ((length_transfer ..).trans hsize).ge)
    fun h => h.transfer_eq 0 le_rfl (by rw [hsize, Nat.mul_one])

theorem suba16_roundTrip {s : State} {bs : List Byte} (hsrc : ByteSource s bs) (hdims : DimsLegal s)
    (hsize : bs.length = 2 * (s.w * s.hgt)) (hperm : PermutesBelow (s.w * s.hgt) (subaMap .suba16 s.w s.hgt)) :
    RoundTrips .subaSwz16 .subaUnswz16 s ∧ RoundTrips .subaUnswz16 .subaSwz16 s := by
  have hwhole : bs.length % 2 = 0 := by omega
  refine mapCommands_roundTrip subaSwz16_swizzles subaUnswz16_unswizzles hsrc hperm
    (pairPixelCheck_eq_none hsrc hdims hwhole hsize.ge) (fun moves => ?_)
    fun h => h.transfer_eq 0 (by decide) (by rw [hsize, Nat.mul_comm])
  refine pairPixelCheck_eq_none (movedBack_byteSource s _) hdims ?_ ((length_transfer ..).trans hsize).ge
  rwa [length_transfer]

end Sys2Proof.Machine
end

section
/-! The statements of the family of 43_ps2.md, settled. -/

namespace Sys2Proof.Machine

open Sys2Proof

/-- Settles O44: the moves fetch each entry from swap34, digit by digit of the index. -/
theorem paletteCommandsSwapBits3And4 : Obligations.PaletteCommandsSwapBits3And4 := by
  intro s ws hsrc hne hparts i hi
  refine palette_ends (by simpa using hi) hsrc hne hparts ⟨length_restripe ws, fun k hk => ?_⟩
  exact ⟨getElem?_restripe hparts hk, swap34_lt hparts hk, testBit_swap34 k⟩

/-- Settles O45: the palette moves go backwards along themselves. -/
theorem paletteReorderIsAnInvolution : Obligations.PaletteReorderIsAnInvolution := by
  refine ⟨swap34_swap34, fun s ws hsrc hne hparts => ⟨?_, ?_⟩⟩
  · exact palette_roundTrips (.inl rfl) (.inl rfl) hsrc hne hparts
  · exact palette_roundTrips (.inl rfl) (.inr rfl) hsrc hne hparts

/-- Settles O48: pixels are told by their pair of rows and their place in it. -/
theorem ps2IndexPermutesTilePages : Obligations.Ps2IndexPermutesTilePages := by
  intro w h hw hh
  exact permutesImage_ps2Idx8 hw hh

/-- Settles O49: on whole tiles by O48, elsewhere by hypothesis, the index permutes the image. -/
theorem ps2SwizzlesRoundTrip : Obligations.Ps2SwizzlesRoundTrip := by
  intro s hdims hdomain
  have hperm : PermutesImage (ps2IdxOf s.ps2Index s.w) s.w s.hgt := by
    obtain ⟨hindex, hw, hh⟩ | hperm := hdomain
    · rw [hindex]
      exact permutesImage_ps2Idx8 hw hh
    · exact hperm
  exact ⟨fun _ => ps2Bytes_roundTrip hdims hperm, fun _ => ps2Words_roundTrip hdims hperm⟩

/-- Settles O50: the loops place what their moves say, and R164's corner is the map's. -/
theorem nibbleSwizzlesPlacePixels : Obligations.NibbleSwizzlesPlacePixels := by
  intro s bs hsrc hdims hsize
  have hcheck := nibblePixelCheck_eq_none hsrc hdims hsize
  refine ⟨?_, ?_, ?_, ?_⟩
  · exact endsWithBytes_of_byteCommand (ps2Swz4_swizzles s) hcheck hsrc (transferNibbles_places ..)
  · exact endsWithBytes_of_byteCommand (subaSwz4_swizzles s) hcheck hsrc
      ⟨transferNibbles_places .., fun hodd => readNibble_suba4_last hodd hsize⟩
  · exact endsWithBytes_of_byteCommand (ps2Unswz4_unswizzles s) hcheck hsrc
      ⟨length_transferNibbles .., fun _ => readNibble_transferNibbles_unmapMoves _ _ bs⟩
  · exact endsWithBytes_of_byteCommand (subaUnswz4_unswizzles s) hcheck hsrc
      ⟨length_transferNibbles .., fun _ => readNibble_transferNibbles_unmapMoves _ _ bs⟩

/-- Settles O51: an unswizzle reads pixel `p` from the slot the map names. -/
theorem subaByteSwizzlesPlacePixels : Obligations.SubaByteSwizzlesPlacePixels := by
  intro s bs hsrc hdims hsize
  have hcheck := bytePixelCheck_eq_none hsrc hdims hsize
  constructor
  · exact endsWithBytes_of_byteCommand (subaSwz8_swizzles s) hcheck hsrc (transfer_places ..)
  · refine endsWithBytes_of_byteCommand (subaUnswz8_unswizzles s) hcheck hsrc ⟨length_transfer .., fun p hp => ?_⟩
    have hpixel := getElem?_transfer_unmapMoves 0 le_rfl (subaMap .suba8 s.w s.hgt) (s.w * s.hgt) (Nat.mod_one _) hp
    simpa only [Nat.div_one, Nat.mul_one, Nat.mod_one, Nat.add_zero] using hpixel

/-- Settles O52, as O51 over groups of two bytes. -/
theorem subaPairSwizzlesPlacePixels : Obligations.SubaPairSwizzlesPlacePixels := by
  intro s bs hsrc hdims hwhole hsize
  have hcheck := pairPixelCheck_eq_none hsrc hdims hwhole hsize
  constructor
  · exact endsWithBytes_of_byteCommand (subaSwz16_swizzles s) hcheck hsrc (transfer_placesGroups (by decide) ..)
  · refine endsWithBytes_of_byteCommand (subaUnswz16_unswizzles s) hcheck hsrc ⟨length_transfer .., fun p j hp hj => ?_⟩
    have hinside : ∀ q, q < bs.length / 2 ↔ 2 * q + 1 < bs.length := by omega
    rw [getElem?_transfer_unmapMoves 0 (by decide) _ _ hwhole (by omega : 2 * p + j < bs.length), Nat.mul_comm 2 p,
      row_major_div p hj, row_major_mod p hj, Nat.mul_comm _ 2]
    simp only [hinside]

/-- Settles O53: blocks and the places in them are permuted apart; off the page grid only the units are bound. -/
theorem ea4MapObeysItsLaws : Obligations.Ea4MapObeysItsLaws := by
  intro w h
  constructor
  · intro hw hh
    exact ⟨permutesBelow_ea4Map hw hh, fun _ _ _ _ => ea4Map_unit_eq_iff_of_grid hw hh⟩
  · intro x y x' y' hcol hrow hsamecol hsamerow
    by_cases hgrid : w % 128 = 0 ∧ h % 128 = 0
    · exact ea4Map_unit_eq_iff_of_grid hgrid.1 hgrid.2 (by omega) (by omega) (by omega) (by omega)
    · rw [ea4Map_of_not_grid hgrid, ea4Map_of_not_grid hgrid]
      exact ea4MapOffGrid_unit_eq_iff hcol hrow hsamecol hsamerow

/-- Settles O54: a page goes to one run, on the page grid and off it, and the tail is kept off. -/
theorem subaMapsObeyTheirLaws : Obligations.SubaMapsObeyTheirLaws := by
  refine ⟨fun k a w h ha => ?_, fun w h p hodd => subaMap_not_high_half hodd p⟩
  obtain rfl : a = subaSide k := by rw [ha]; cases k <;> rfl
  exact ⟨permutesBelow_subaMap, fun X Y => exists_run_of_page k⟩

/-- Settles O55: on the page grid the maps permute the image (O53, O54), so each command undoes the other's moves. -/
theorem pagedSwizzlesRoundTrip : Obligations.PagedSwizzlesRoundTrip := by
  intro s bs hsrc hdims
  refine ⟨fun hw hh hsize => ?_, fun hw hh hsize => ?_, fun hw hh hsize => ?_⟩
  · obtain ⟨hthere, hback⟩ :=
      nibbleCommands_roundTrip ps2Swz4_swizzles ps2Unswz4_unswizzles hsrc hdims hsize (permutesBelow_ea4Map hw hh)
    exact ⟨hthere, hback,
      nibbleCommands_roundTrip subaSwz4_swizzles subaUnswz4_unswizzles hsrc hdims hsize (permutesBelow_subaMap hw hh)⟩
  · exact suba8_roundTrip hsrc hdims hsize (permutesBelow_subaMap hw hh)
  · exact suba16_roundTrip hsrc hdims hsize (permutesBelow_subaMap hw hh)

end Sys2Proof.Machine
end

section
/-! SUPPORT. PSP_IDX (44_psp.md R180, R183) and the PSP commands (R181, R182). -/

namespace Sys2Proof.Machine

open Sys2Proof

/-! ### Where PSP_IDX permutes the image -/

theorem permutesBelow_id (n : Nat) : PermutesBelow n id :=
  permutesBelow_of_injective (fun _ => id) fun _ _ _ _ => id

/-- A function that agrees with a bijection of the numbers below `n` is one. -/
theorem PermutesBelow.congr {n : Nat} {f g : Nat → Nat} (hf : PermutesBelow n f) (heq : ∀ p, p < n → g p = f p) :
    PermutesBelow n g := by
  refine permutesBelow_of_injective (fun p hp => ?_) fun p q hp hq h => ?_
  · rw [heq p hp]
    exact hf.lt hp
  · rw [heq p hp, heq q hq] at h
    exact (hf.eq_iff hp hq).1 h

/-- PSP_IDX stores the 16x8 tiles of the image in row-major order, each row by row. -/
theorem pspIndex_eq_tileMap (rw p : Nat) :
    pspIndex rw (p % rw) (p / rw) = tileMap 16 8 id (fun _ => id) rw p := by
  simp only [pspIndex, tileMap, tileOf, inTile, id]
  ring

/-- Rows of one block, and one row of at most one block, stay where they are. -/
theorem pspIndex_eq_row_major {rw h x y : Nat} (hdomain : rw = 16 ∨ (h = 1 ∧ rw ≤ 16)) (hx : x < rw) (hy : y < h) :
    pspIndex rw x y = y * rw + x := by
  simp only [pspIndex]
  obtain rfl | ⟨rfl, hrw⟩ := hdomain
  · omega
  · obtain rfl : y = 0 := by omega
    omega

/-- On whole 16x8 tiles PSP_IDX permutes the image. -/
theorem permutesImage_pspIndex_of_tiles {rw h : Nat} (hrw : rw % 16 = 0) (hh : h % 8 = 0) :
    PermutesImage (pspIndex rw) rw h :=
  (permutesBelow_tileMap (by decide) (by decide) (Nat.dvd_of_mod_eq_zero hrw) (Nat.dvd_of_mod_eq_zero hh)
    (permutesBelow_id _) fun _ => permutesBelow_id _).congr fun p _ => pspIndex_eq_tileMap rw p

/-- On images one block wide it permutes them as the identity. -/
theorem permutesImage_pspIndex_of_block_wide {rw h : Nat} (hdomain : rw = 16 ∨ (h = 1 ∧ rw ≤ 16)) :
    PermutesImage (pspIndex rw) rw h := by
  refine (permutesBelow_id _).congr fun p hp => ?_
  have hpos : 0 < rw := Nat.pos_of_mul_pos_right (Nat.zero_lt_of_lt hp)
  rw [pspIndex_eq_row_major hdomain (Nat.mod_lt p hpos) (Nat.div_lt_of_lt_mul hp), Nat.div_add_mod', id]

/-- PSP_IDX permutes the image on each of the three domains of 44_psp.md R183. -/
theorem permutesImage_pspIndex {rw h : Nat} (hdomain : (rw % 16 = 0 ∧ h % 8 = 0) ∨ rw = 16 ∨ (h = 1 ∧ rw ≤ 16)) :
    PermutesImage (pspIndex rw) rw h := by
  obtain ⟨hrw, hh⟩ | hblock := hdomain
  · exact permutesImage_pspIndex_of_tiles hrw hh
  · exact permutesImage_pspIndex_of_block_wide hblock

/-! ### PSP_SWZ and PSP_UNSWZ -/

theorem exec_pspSwz (s : State) : exec .pspSwz s = .next (byteCommand (pspCheck s)
    (transfer 0 1 (swizzleMoves (pspIndex (pspRowWidth s)) (pspRowWidth s) s.hgt)) s) := rfl

theorem exec_pspUnswz (s : State) : exec .pspUnswz s = .next (byteCommand (pspCheck s)
    (transfer 0 1 (unswizzleMoves (pspIndex (pspRowWidth s)) (pspRowWidth s) s.hgt)) s) := rfl

/-- A byte image of legal BPP and dimensions that fits SRC passes the checks (44_psp.md R181). -/
theorem pspCheck_eq_none {s : State} {bs : List Byte} (hsrc : ByteSource s bs) (hdims : DimsLegal s)
    (hbits : s.bits ∈ [4, 8, 16, 32]) (hsize : s.hgt * pspRowWidth s ≤ bs.length) : pspCheck s = none := by
  refine (commandCheck_eq_none_iff (i := .pspSwz) rfl s).2 ⟨by simpa [ParamLegal, State.bits] using hbits, ?_, ?_⟩
  · rw [ShapeLegal, hsrc.1]
    exact ⟨hdims, rfl, hsize⟩
  · simp [SharesElement, hsrc.2]

/-- Where PSP_IDX permutes an image without padding, the commands undo each other. -/
theorem psp_roundTrip {s : State} {bs : List Byte} (hsrc : ByteSource s bs) (hdims : DimsLegal s)
    (hbits : s.bits ∈ [4, 8, 16, 32]) (hperm : PermutesImage (pspIndex (pspRowWidth s)) (pspRowWidth s) s.hgt)
    (hsize : bs.length = pspRowWidth s * s.hgt) :
    RoundTrips .pspSwz .pspUnswz s ∧ RoundTrips .pspUnswz .pspSwz s := by
  have hfits : s.hgt * pspRowWidth s ≤ bs.length := (hsize.trans (Nat.mul_comm _ _)).ge
  have hcheck := pspCheck_eq_none hsrc hdims hbits hfits
  have hback : ∀ moves, pspCheck (movedBack s (transfer 0 1 moves bs)) = none := fun moves =>
    pspCheck_eq_none (movedBack_byteSource s _) hdims hbits (hfits.trans_eq (length_transfer ..).symm)
  have hgroups : bs.length = pspRowWidth s * s.hgt * 1 := hsize.trans (Nat.mul_one _).symm
  constructor
  · exact roundTrips_of_byteCommands hsrc (exec_pspSwz s) (exec_pspUnswz _) hcheck (hback _)
      (hperm.unswizzle_swizzle 0 le_rfl hgroups)
  · exact roundTrips_of_byteCommands hsrc (exec_pspUnswz s) (exec_pspSwz _) hcheck (hback _)
      (hperm.swizzle_unswizzle 0 le_rfl hgroups)

end Sys2Proof.Machine
end

section
/-! The statements of the family of 44_psp.md, settled. -/

namespace Sys2Proof.Machine

open Sys2Proof

/-- Settles O56: the checks pass, and the loops place and gather bytes whatever PSP_IDX is, RW = 0 included. -/
theorem pspSwizzlesPlaceBytes : Obligations.PspSwizzlesPlaceBytes := by
  intro s bs hsrc hdims hbits hsize
  have hcheck := pspCheck_eq_none hsrc hdims hbits hsize
  constructor
  · exact endsWithBytes_of_byteCommand (exec_pspSwz s) hcheck hsrc (transfer_places ..)
  · exact endsWithBytes_of_byteCommand (exec_pspUnswz s) hcheck hsrc
      (transfer_unswizzleMoves_gathers 0 _ (pspRowWidth s) s.hgt bs ((Nat.mul_comm _ _).trans_le hsize))

/-- Settles O57: a renumbering of whole tiles, or the identity on images one block wide. -/
theorem pspIndexPermutesItsDomains : Obligations.PspIndexPermutesItsDomains :=
  fun _ _ => permutesImage_pspIndex

/-- Settles O58: on the domains of O57 each command undoes the other's moves. -/
theorem pspSwizzlesRoundTrip : Obligations.PspSwizzlesRoundTrip := by
  intro s bs hsrc hdims hbits hdomain hsize
  exact psp_roundTrip hsrc hdims hbits (permutesImage_pspIndex hdomain) hsize

end Sys2Proof.Machine
end

section
/-! SUPPORT. What a refused command reports (60_exceptions.md R201, R202), and that a step stops only at a write of a register
above number 8 (R200 (e), R206; log 9). -/

namespace Sys2Proof.Machine

open Sys2Proof

/-! ### The checks of a command -/

/-- The first failing check of 60_exceptions.md R202, in the spec's terms. -/
theorem commandCheck_reports {i : Instr} (hcmd : i.format = .cmd) (s : State) :
    (¬ ParamLegal i s → commandCheck i s = some .param) ∧
    (ParamLegal i s → ¬ ShapeLegal i s → commandCheck i s = some .shape) ∧
    (ParamLegal i s → ShapeLegal i s → SharesElement i s → commandCheck i s = some .overlap) := by
  obtain ⟨paramOk, shapeOk, overlap, hcheck, hparam, hshape, hoverlap⟩ := commandCheck_eq_firstRefusal hcmd s
  rw [hcheck, ← hparam, ← hshape, ← hoverlap]
  refine ⟨fun hp => ?_, fun hp hs => ?_, fun hp hs ho => ?_⟩
  · simp [firstRefusal, hp]
  · simp [firstRefusal, hp, hs]
  · simp [firstRefusal, hp, hs, ho]

/-- No command reports RF_BAD_OP or RF_OVERRUN from its checks (60_exceptions.md R201). -/
theorem commandCheck_reason {i : Instr} (hcmd : i.format = .cmd) {s : State} {r : Reason}
    (hcheck : commandCheck i s = some r) : r = .param ∨ r = .shape ∨ r = .overlap := by
  obtain ⟨paramOk, shapeOk, overlap, hfirst, -⟩ := commandCheck_eq_firstRefusal hcmd s
  exact firstRefusal_reason _ _ _ r (hfirst ▸ hcheck)

/-- A command with a failing check refuses with what the check reports (60_exceptions.md R202). -/
theorem exec_of_commandCheck_eq_some {i : Instr} (hcmd : i.format = .cmd) {s : State} {r : Reason}
    (hcheck : commandCheck i s = some r) : exec i s = .next (refuse r s) := by
  obtain ⟨effect, hi, -⟩ := exists_completesWith hcmd
  rw [hi s, hcheck, command_some]

/-! ### Steps that go on -/

theorem pending_of_sameInputs {s t : State} (h : SameInputs s t) : t.pending = s.pending := by
  rw [h]

/-- A write of CMD always answers a next state, an illegal word's a refusal of the spec, and leaves the host's list. -/
theorem runCmd_goes_on (w : Word) (s : State) : ∃ t, runCmd w s = .next t ∧ t.pending = s.pending := by
  obtain hbad | ⟨i, hcmd, hrun⟩ := runCmd_cases w
  · exact ⟨_, hbad s, rfl⟩
  · obtain ⟨t, ht, -⟩ := exec_command_outcome hcmd s
    exact ⟨t, (hrun s).trans ht, pending_of_sameInputs (sameInputs_of_exec hcmd ht)⟩

/-- A host write changes neither STATUS (10_state.md R21) nor anything but descriptor registers. -/
theorem writeReg_frame {s t : State} {v : Word} {n : Nat} (h : s.writeReg v n = some t) :
    t.status = s.status ∧ t.mem = s.mem ∧ t.work = s.work ∧ t.pending = s.pending := by
  obtain ⟨-, rfl⟩ | ⟨-, rfl⟩ | ⟨-, rfl⟩ | ⟨-, rfl⟩ | ⟨-, rfl⟩ | ⟨-, rfl⟩ | ⟨-, rfl⟩ | ⟨-, rfl⟩ :=
    writeReg_cases s t v n h
  all_goals exact ⟨rfl, rfl, rfl, rfl⟩

/-- A write of a register the core has goes on. -/
theorem hostWrite_goes_on {n : Nat} (hn : n ≤ 8) (v : Word) (s : State) :
    ∃ t, hostWrite n v s = .next t ∧ t.pending = s.pending := by
  cases hwrite : s.writeReg v n with
  | none => exact absurd ((writeReg_none s v n).1 hwrite) (Nat.not_lt.2 hn)
  | some t =>
    obtain ⟨-, -, -, hpending⟩ := writeReg_frame hwrite
    rw [← hpending]
    simp only [hostWrite, hwrite]
    split
    · exact runCmd_goes_on v t
    · exact ⟨t, rfl, rfl⟩

/-- A write of a register it does not have faults (log 9). -/
theorem hostWrite_of_unknown {n : Nat} (hn : 8 < n) (v : Word) (s : State) :
    hostWrite n v s = .fault (.noSuchRegister n) := by
  simp only [hostWrite, (writeReg_none s v n).2 hn]

/-- Every other host action goes on. -/
theorem act_goes_on {a : HostAction} (ha : ∀ n v, a = .setReg n v → n ≤ 8) (s : State) :
    ∃ t, act a s = .next t ∧ t.pending = s.pending := by
  cases a with
  | setReg n v => exact hostWrite_goes_on (ha n v rfl) v s
  | loadSrc b | moveDstToSrc | handOver src dst overlap | resetCore => exact ⟨_, rfl, rfl⟩

/-- The pending register writes name registers the core has. -/
def KnownWrites (s : State) : Prop := ∀ n v, HostAction.setReg n v ∈ s.pending → n ≤ 8

/-- A step takes one action from the host's list, and so keeps its writes known. -/
theorem step_goes_on {s : State} (h : KnownWrites s) : ∃ t, step s = .next t ∧ KnownWrites t := by
  obtain ⟨-, hstep⟩ | ⟨a, rest, hpending, hstep⟩ := step_cases s
  · exact ⟨s, hstep, h⟩
  · have ha : ∀ n v, a = .setReg n v → n ≤ 8 := fun n v ha => h n v (by rw [hpending, ha]; exact List.mem_cons_self)
    obtain ⟨t, ht, hrest⟩ := act_goes_on ha { s with pending := rest }
    refine ⟨t, hstep.trans ht, fun n v hmem => h n v ?_⟩
    rw [hrest] at hmem
    rw [hpending]
    exact List.mem_cons_of_mem a hmem

/-- A run begins with a step. -/
theorem run_succ_of_step {s t : State} (h : step s = .next t) (k : Nat) : core.run (k + 1) s = core.run k t := by
  have hcore : core.step s = .next t := h
  simp only [Host.Core.run, hcore]

theorem safeRun_of_knownWrites (k : Nat) {s : State} (h : KnownWrites s) : SafeRun k s := by
  induction k generalizing s with
  | zero => exact ⟨s, rfl⟩
  | succ k ih =>
    obtain ⟨t, hstep, ht⟩ := step_goes_on h
    obtain ⟨u, hu⟩ := ih ht
    exact ⟨u, (run_succ_of_step hstep k).trans hu⟩

end Sys2Proof.Machine
end

section
/-! SUPPORT. The working registers after a BC6H command (10_state.md R25, 41_bc6h.md R111, R124, R127): every endpoint
register in its range, those a one-region block does not use included. -/

namespace Sys2Proof.Machine

open Sys2Proof

/-! ### The ranges, register by register -/

theorem epRegistersInRange_iff (ep : Rgb (Quad Int)) :
    epRegistersInRange ep = true ↔ ∀ c e, (ep.get c).get e ∈ Set.Icc (-32768) 65535 := by
  simp [Chan.forall_iff, EpIx.forall_iff, epRegistersInRange, Rgb.allOk, epInRange, Rgb.get, Quad.get, and_assoc]

theorem work_wf_iff (k : Work) :
    k.wf = true ↔ k.cur ≤ 128 ∧ midxAgrees k = true ∧ epRegistersInRange k.ep = true ∧
      ∀ (j : Fin 16) (c : Chan), halfInRange (k.h[j].get c) = true := by
  simp [Work.wf, and_assoc, Chan.forall_iff, Rgb.get, Fin.forall_iff]

/-! ### The endpoints a block does not use -/

/-- An endpoint not in use is no base, and no step on the deltas changes it. -/
theorem get_mapDeltas_of_not_inUse {two : Bool} {e : EpIx} (hunused : ¬ InUse two e) (f : Int → Int) (q : Quad Int) :
    (mapDeltas two f q).get e = q.get e := by
  cases two with
  | true => exact absurd (.inl rfl) hunused
  | false => cases e with
    | w => exact absurd (.inr (.inl rfl)) hunused
    | x => exact absurd (.inr (.inr rfl)) hunused
    | y | z => rfl

theorem get_setBase_of_not_inUse {two : Bool} {e : EpIx} (hunused : ¬ InUse two e) (w : Int) (q : Quad Int) :
    ({ q with w := w } : Quad Int).get e = q.get e := by
  cases e with
  | w => exact absurd (.inr (.inl rfl)) hunused
  | x | y | z => rfl

/-- So no step of the pipeline changes it (41_bc6h.md R115 to R119). -/
theorem get_channelEndpoints_of_not_inUse {d : ModeDesc} {e : EpIx} (hunused : ¬ InUse d.twoRegions e) (c : Chan)
    (signed : Bool) (raw : Quad Nat) : (channelEndpoints d c signed raw).get e = raw.get e := by
  have hreconstruct (q : Quad Int) : (reconstruct d c signed q).get e = q.get e := by
    cases hmode : d.transformed with
    | true =>
      rw [reconstruct_of_transformed hmode]
      simp only [get_mapDeltas_of_not_inUse hunused, get_setBase_of_not_inUse hunused]
    | false =>
      rw [reconstruct_of_direct hmode]
      split
      · rw [get_mapDeltas_of_not_inUse hunused, get_setBase_of_not_inUse hunused]
      · rfl
  rw [channelEndpoints, mapInUse, get_mapDeltas_of_not_inUse hunused, get_setBase_of_not_inUse hunused, hreconstruct,
    Quad.get_map]
  rfl

/-- A well-formed block stores 0 there (30_encoding.md R76). -/
theorem field_eq_zero_of_wf {m : Fin 14} {f : BlockFields} (hf : f.wf m = true) (c : Chan) {e : EpIx}
    (hunused : ¬ InUse (modeDesc m).twoRegions e) : (f.ep.get c).get e = 0 := by
  obtain ⟨hep, -, -⟩ := (wf_iff m f).1 hf
  have hstored : storedWidth m c e = 0 :=
    if_neg (by simpa only [InUse, Bool.or_eq_true, beq_iff_eq, or_assoc] using hunused)
  have hlt := (epOk_iff m f).1 hep c e
  rwa [hstored, pow_zero, Nat.lt_one_iff] at hlt

/-! ### What a block leaves -/

/-- Both ranges of unquantized endpoints lie in that of the registers (41_bc6h.md R127). -/
theorem finishDomain_subset (signed : Bool) : finishDomain signed ⊆ Set.Icc (-32768) 65535 := by
  cases signed
  · exact Set.Icc_subset_Icc_left (by decide)
  · exact Set.Icc_subset_Icc_right (by decide)

/-- The endpoint registers of a block of a mode, in use or not. -/
theorem epRegistersInRange_finalEndpoints {m : Fin 14} {f : BlockFields} (hf : f.wf m = true) (signed : Bool) :
    epRegistersInRange (finalEndpoints (modeDesc m) signed f.ep) = true := by
  rw [epRegistersInRange_iff]
  intro c e
  rw [get_finalEndpoints]
  by_cases huse : InUse (modeDesc m).twoRegions e
  · exact finishDomain_subset signed (channelEndpoints_mem_finishDomain hf signed c huse)
  · rw [get_channelEndpoints_of_not_inUse huse, field_eq_zero_of_wf hf c huse]
    decide

/-- MCODE of a mode selects it (41_bc6h.md R111). -/
theorem modeOfCode_mcode (m : Fin 14) : modeOfCode (BitVec.ofNat 5 (modeDesc m).code).toNat = some m := by
  rw [modeOfCode_eq_some_iff, BitVec.toNat_ofNat, Nat.mod_eq_of_lt (modeDesc_code_lt m)]

/-- From Init's working registers every block leaves them in their ranges: a reserved one leaves EP and H cleared. -/
theorem runBlock_initWork_wf {b : Block} {p : ParsedBlock} (hparse : parseBlock b = some p) (signed : Bool) (s : State) :
    (runBlock signed p (initWork b s)).work.wf = true := by
  obtain ⟨-, -, hclearEp, hclearH⟩ := (work_wf_iff Work.clear).1 work_clear_wf
  rw [work_wf_iff]
  obtain ⟨code, cur, hread, hmode, hparse'⟩ | ⟨m, f, hwf, hparse'⟩ := parseBlock_cases b
  all_goals obtain rfl := Option.some.inj (hparse'.symm.trans hparse)
  · obtain ⟨hcur, hcode⟩ := readModeCode_reserved hread hmode
    exact ⟨hcur.trans_le (by decide), hcode, hclearEp, hclearH⟩
  · exact ⟨Nat.le_refl 128, beq_iff_eq.2 (modeOfCode_mcode m), epRegistersInRange_finalEndpoints hwf signed,
      halfInRange_pixel hwf signed⟩

theorem bc6hBody_work_wf (signed : Bool) (f : Rgb Byte → Rgb Byte) (s : State) :
    (bc6hBody signed f s).work.wf = true := by
  obtain ⟨p, hparse⟩ := parseBlock_eq_some (blockOfBytes s.mem.src.asBytes)
  simp only [bc6hBody, hparse, complete_work, setDst_work]
  exact runBlock_initWork_wf hparse signed s

end Sys2Proof.Machine
end

section
/-! SUPPORT. The invariant, kept by every command and every host action (60_exceptions.md R201, 10_state.md R25). -/

namespace Sys2Proof.Machine

open Sys2Proof

/-! ### STATUS (60_exceptions.md R201) -/

theorem statusLegal_statusDone : statusLegal statusDone = true := rfl

/-- Every refusal but RF_OVERRUN may show in STATUS. -/
theorem statusLegal_statusRefused {r : Reason} (hr : r ≠ .overrun) : statusLegal (statusRefused r) = true := by
  cases r with
  | badOp | param | shape | overlap => rfl
  | overrun => exact absurd rfl hr

theorem statusLegal_of_exec {i : Instr} (hcmd : i.format = .cmd) {s t : State} (ht : exec i s = .next t) :
    statusLegal t.status = true := by
  obtain ⟨t', ht', hend⟩ := exec_command_outcome hcmd s
  obtain rfl := Host.Outcome.next.inj (ht'.symm.trans ht)
  obtain ⟨r, hcheck, rfl⟩ | ⟨-, hdone, -⟩ := hend
  · refine statusLegal_statusRefused ?_
    obtain rfl | rfl | rfl := commandCheck_reason hcmd hcheck <;> decide
  · exact hdone ▸ statusLegal_statusDone

/-! ### Buffers and working registers -/

/-- The canonical form of the buffers speaks of SRC and the overlap mark alone, which no command changes. -/
theorem mem_wf_of_sameInputs {s t : State} (h : SameInputs s t) (hs : s.mem.wf = true) : t.mem.wf = true := by
  rw [h]
  exact setDst_keeps_wf s.mem t.mem.dst hs

/-- Only the BC6H commands write the working registers, and they leave them in their ranges (10_state.md R25). -/
theorem work_wf_of_exec {i : Instr} (hcmd : i.format = .cmd) {s t : State} (hs : s.work.wf = true)
    (ht : exec i s = .next t) : t.work.wf = true := by
  obtain ⟨⟨signed, hbc6h⟩, -⟩ | ⟨-, hi⟩ | ⟨-, dst, -, hi⟩ := exec_command_cases hcmd
  · obtain ⟨f, hi⟩ : ∃ f, CompletesWith i (bc6hBody signed f) := by
      obtain rfl | rfl := hbc6h
      · exact ⟨_, exec_bc6hDec signed⟩
      · exact ⟨_, exec_bc6hDecF signed⟩
    obtain ⟨r, -, rfl⟩ | ⟨-, rfl⟩ := hi.cases ht
    · exact hs
    · exact bc6hBody_work_wf signed f s
  all_goals
    obtain ⟨r, -, rfl⟩ | ⟨-, rfl⟩ := hi.cases ht
    all_goals exact hs

/-! ### The invariant -/

theorem exec_keeps_inv {i : Instr} (hcmd : i.format = .cmd) {s t : State} (hs : Inv s) (ht : exec i s = .next t) :
    Inv t where
  status := statusLegal_of_exec hcmd ht
  mem := mem_wf_of_sameInputs (sameInputs_of_exec hcmd ht) hs.mem
  work := work_wf_of_exec hcmd hs.work ht

theorem runCmd_keeps_inv {w : Word} {s t : State} (hs : Inv s) (ht : runCmd w s = .next t) : Inv t := by
  obtain hbad | ⟨i, hcmd, hrun⟩ := runCmd_cases w
  · obtain rfl := Host.Outcome.next.inj ((hbad s).symm.trans ht)
    exact ⟨statusLegal_statusRefused (by decide), hs.mem, hs.work⟩
  · exact exec_keeps_inv hcmd hs ((hrun s).symm.trans ht)

theorem writeReg_keeps_inv {s t : State} {v : Word} {n : Nat} (hs : Inv s) (h : s.writeReg v n = some t) : Inv t := by
  obtain ⟨hstatus, hmem, hwork, -⟩ := writeReg_frame h
  exact ⟨hstatus ▸ hs.status, hmem ▸ hs.mem, hwork ▸ hs.work⟩

theorem hostWrite_keeps_inv {n : Nat} {v : Word} {s t : State} (hs : Inv s) (ht : hostWrite n v s = .next t) : Inv t := by
  cases hwrite : s.writeReg v n with
  | none => simp [hostWrite, hwrite] at ht
  | some u =>
    have hu := writeReg_keeps_inv hs hwrite
    simp only [hostWrite, hwrite] at ht
    split at ht
    · exact runCmd_keeps_inv hu ht
    · exact Host.Outcome.next.inj ht ▸ hu

/-- LOAD, MOVE and the hand-over leave buffers in canonical form; reset leaves Init's working registers (log 4). -/
theorem bufferAction_keeps_inv (a : HostAction) {s : State} (hs : Inv s) : Inv (bufferAction a s) := by
  cases a with
  | setReg n v => exact hs
  | loadSrc b => exact ⟨hs.status, loadSrc_wf s.mem b, hs.work⟩
  | moveDstToSrc => exact ⟨hs.status, moveDstToSrc_wf s.mem, hs.work⟩
  | handOver src dst overlap => exact ⟨hs.status, handOver_wf src dst overlap, hs.work⟩
  | resetCore => exact ⟨rfl, hs.mem, work_clear_wf⟩

theorem act_keeps_inv {a : HostAction} {s t : State} (hs : Inv s) (ht : act a s = .next t) : Inv t := by
  by_cases hwrite : ∃ n v, a = .setReg n v
  · obtain ⟨n, v, rfl⟩ := hwrite
    exact hostWrite_keeps_inv hs ht
  · rw [act_bufferAction a s fun n v ha => hwrite ⟨n, v, ha⟩] at ht
    exact Host.Outcome.next.inj ht ▸ bufferAction_keeps_inv a hs

end Sys2Proof.Machine
end

section
/-! The statements of the family of 60_exceptions.md, settled. -/

namespace Sys2Proof.Machine

open Sys2Proof

/-- Settles O60: each host action keeps the invariant, a write of CMD with the whole command it starts. -/
theorem stepKeepsTheInvariant : Obligations.StepKeepsTheInvariant := by
  intro s t hs ht
  obtain ⟨-, hstep⟩ | ⟨a, rest, -, hstep⟩ := step_cases s
  · exact Host.Outcome.next.inj (hstep.symm.trans ht) ▸ hs
  · have hqueue : Inv { s with pending := rest } := ⟨hs.status, hs.mem, hs.work⟩
    exact act_keeps_inv hqueue (hstep.symm.trans ht)

/-- Settles O6: no other action stops a step, and a step adds no write to the host's list. -/
theorem onlyUnknownRegistersFault : Obligations.OnlyUnknownRegistersFault := by
  refine ⟨fun s n v rest hn hpending => ?_, fun s k => safeRun_of_knownWrites k⟩
  rw [step_of_pending hpending]
  exact hostWrite_of_unknown hn v _

/-- Settles O7: the refusal is what the first failing check reports. -/
theorem commandsRefuseInCheckOrder : Obligations.CommandsRefuseInCheckOrder := by
  intro i s hcmd
  obtain ⟨hparam, hshape, hoverlap⟩ := commandCheck_reports hcmd s
  exact ⟨fun hp => exec_of_commandCheck_eq_some hcmd (hparam hp),
    fun hp hs => exec_of_commandCheck_eq_some hcmd (hshape hp hs),
    fun hp hs ho => exec_of_commandCheck_eq_some hcmd (hoverlap hp hs ho)⟩

/-- Settles O9: a command that is not DONE was refused by one of its three checks. -/
theorem refusalLeavesAllButStatus : Obligations.RefusalLeavesAllButStatus := by
  intro i s t hcmd ht hrefused
  obtain ⟨t', ht', hend⟩ := exec_command_outcome hcmd s
  obtain rfl := Host.Outcome.next.inj (ht'.symm.trans ht)
  obtain ⟨r, hcheck, rfl⟩ | ⟨-, hdone, -⟩ := hend
  · refine ⟨rfl, ?_⟩
    rw [refuse_status]
    obtain rfl | rfl | rfl := commandCheck_reason hcmd hcheck
    · exact ⟨rfl, by decide, 2, rfl⟩
    · exact ⟨rfl, by decide, 3, rfl⟩
    · exact ⟨rfl, by decide, 4, rfl⟩
  · rw [hdone] at hrefused
    exact absurd hrefused (by decide)

end Sys2Proof.Machine
end
